-- ==== Sys2Proof/Word.lean ====
section
/-! DEFINITION. The byte and the command word (00_scope.md R9, 20_memory.md R52, 30_encoding.md R70). -/

namespace Sys2Proof

/-- One element of a data space (R52); bit 0 is the least significant bit (R9). -/
abbrev Byte := BitVec 8

/-- A command word, presented whole (R70). -/
abbrev CommandWord := BitVec 16

end Sys2Proof
end

