-- ==== Sys2Proof/Config.lean ====
section
/-! DEFINITION. The structural constants of R6, the shape of the named parameters of R7, and the free values.
The parameters' VALUES (the spec's defaults) stand in Machine/Params.lean. -/

namespace Sys2Proof

namespace Config

/-- Raw frame length in soft bits (R6 FRAME). -/
abbrev frame : Nat := 5200
/-- Interleaver columns, the stride of the walk (R6 COLS). -/
abbrev cols : Nat := 80
/-- Interleaver rows (R6 ROWS). -/
abbrev rows : Nat := 65
/-- Convolutional stream length (R6 NSYM). -/
abbrev nsym : Nat := 5132
/-- Trellis states (R6 NSTATE). -/
abbrev nstate : Nat := 64
/-- Information bits per frame (R6 NINFO). -/
abbrev ninfo : Nat := 2560
/-- Flush tail bits (R6 NTAIL). -/
abbrev ntail : Nat := 6
/-- Trellis steps (R6 NSTEP). -/
abbrev nstep : Nat := 2566
/-- Decoded block length in bytes (R6 NDEC). -/
abbrev ndec : Nat := 320
/-- Scrambler period in bytes (R6 SCRPER). -/
abbrev scrper : Nat := 255
/-- Shortened codeword length (R6 RSN). -/
abbrev rsn : Nat := 160
/-- Data symbols per codeword (R6 RSK). -/
abbrev rsk : Nat := 128
/-- Parity symbols per codeword (R6 NROOTS). -/
abbrev nroots : Nat := 32
/-- Correctable symbol errors per codeword (R6 T). -/
abbrev tcorr : Nat := 16
/-- Length of the unshortened code (R6 NN). -/
abbrev nn : Nat := 255
/-- Payload length in bytes (R6 NPAY). -/
abbrev npay : Nat := 256

/-- The free bytes: what `any` stands for (R10). Arguments: the number of the draw, a space id, an element index.
It has no body, so nothing can be proved of a value of it (log 4, 5, 6, 11). -/
opaque freeByte : Nat → Nat → Nat → Byte

/-- The undefined inverse of zero (R133: "ginv(0) is undefined and never evaluated by any rule"; U15; log 12). -/
opaque ginvZero : Byte

/-- The undefined logarithm of zero (R133: "LOG[0] is undefined and never read"; U15; log 12). -/
opaque glogZero : Nat

/-- `gpow(0, e)`, which R134 does not define (it is "for a ≠ 0"; log 12). -/
opaque gpowZero : Int → Byte

end Config

/-- What an implementation does with a host access made while BUSY = 1 (D30 OPEN: BUSY_POLICY). -/
inductive BusyPolicy where
  /-- The access is held off. -/
  | stall
  /-- The access raises BUSY_ACCESS (R188). -/
  | fault
deriving DecidableEq, Repr, Inhabited

/-- BUSY_POLICY has no default in the spec (D30): no value of it can be proved (log 10). -/
opaque Config.busyPolicy : BusyPolicy

/-- The ACS tie rule (R7 TIE, R105): which predecessor wins on equal candidates (log 14). -/
inductive TieRule where
  /-- The predecessor with j = 0. -/
  | lower
  /-- The predecessor with j = 1. -/
  | upper
deriving DecidableEq, Repr

/-- The content of a block after an uncorrectable verdict (R7 RS_FAIL_CONTENT, R147, U1). -/
inductive FailContent where
  /-- Every element unspecified: a free value. -/
  | any
  /-- The strengthening U1 allows: the block is left as it was. -/
  | unchanged
deriving DecidableEq, Repr

/-- A CRC parameter record (R170); `w` is W, the register width. -/
structure CrcRecord (w : Nat) where
  /-- The generator polynomial without its x^W term. -/
  poly   : BitVec w
  /-- The initial register value. -/
  init   : BitVec w
  /-- Whether each input byte is bit-reversed before use. -/
  refin  : Bool
  /-- Whether the final register is bit-reversed. -/
  refout : Bool
  /-- The final exclusive-or mask. -/
  xorout : BitVec w
deriving DecidableEq, Repr

/-- The named configuration fields of R7. -/
structure Params where
  /-- INV_PHASE: the parity of the stream indices whose soft bit is inverted. -/
  invPhase      : Nat
  /-- POLYA: tap mask of the first code symbol. -/
  polyA         : BitVec 7
  /-- POLYB: tap mask of the second code symbol. -/
  polyB         : BitVec 7
  /-- TIE. -/
  tie           : TieRule
  /-- SCR[0..254]. -/
  scr           : List Byte
  /-- GFPOLY: the field polynomial of GF(256), bit i the coefficient of x^i. -/
  gfpoly        : BitVec 9
  /-- FCR: exponent of the first generator root, in units of beta. -/
  fcr           : Nat
  /-- PRIM: beta = alpha^PRIM. -/
  prim          : Nat
  /-- RS_SENTINEL as the two's complement byte ERR stores (R30). -/
  rsSentinel    : Byte
  /-- RS_FAIL_CONTENT. -/
  rsFailContent : FailContent
  /-- CRC16. -/
  crc16         : CrcRecord 16
  /-- CRC32. -/
  crc32         : CrcRecord 32
deriving DecidableEq, Repr

end Sys2Proof
end

