-- ==== Sys2Proof/Syntax.lean ====
section
/-! DEFINITION. The nine commands (30_encoding.md R72, one constructor per row of spec/opcode_table.json), the data
spaces and registers, and the host's actions (00_scope.md R13, 20_memory.md section 4). -/

namespace Sys2Proof

/-- A decoded command with its operand (R72, R73). Each operand has exactly the width of its field, so every value
of this type is a legal command. -/
inductive Instr where
  /-- RAW to CONV (R90). -/
  | deint
  /-- CONV to DEC (R100). -/
  | viterbi
  /-- DEC to RS[0], RS[1] (R120). -/
  | descr
  /-- Correct RS[b] in place, ERR[b] (R130). -/
  | rsdec (b : BitVec 1)
  /-- RS[0], RS[1] to PAYLOAD (R160). -/
  | assemble
  /-- The whole pipeline (R161). -/
  | decode
  /-- Start a CRC-16 (m = 0) or CRC-32 (m = 1) (R171). -/
  | crcinit (m : BitVec 1)
  /-- Absorb one message byte (R172). -/
  | crcbyte (imm8 : BitVec 8)
  /-- Finalise into CRCOUT (R173). -/
  | crcfin
deriving DecidableEq, Repr

/-- The seven data spaces (R23, R50). -/
inductive Space where
  | raw | conv | dec | rs0 | rs1 | payload | err
deriving DecidableEq, Repr

/-- The host-readable registers (R57). -/
inductive RegName where
  | status | crcr | crcmode | crcout
deriving DecidableEq, Repr

/-- What the host can do (R13, R55 to R57, R81, R205). A space id and an index are whatever numbers the host
presents: the checks of R55 and R56 are the core's (log 22). -/
inductive HostAction where
  /-- Issue(word) (R81). -/
  | issue (word : CommandWord)
  /-- MemRead(space, i) (R55). -/
  | memRead (space i : Nat)
  /-- MemWrite(space, i, v) (R56). -/
  | memWrite (space i : Nat) (v : Byte)
  /-- RegRead(name) (R57). -/
  | regRead (name : RegName)
  /-- The reset event (R205). -/
  | reset
deriving DecidableEq, Repr

/-- A value a host read returned (R55, R57: whole registers of 8, 32, 1 and 32 bits). -/
inductive Reply where
  | element (v : Byte)
  | status (v : BitVec 8)
  | crcr (v : BitVec 32)
  | crcmode (v : BitVec 1)
  | crcout (v : BitVec 32)
deriving DecidableEq, Repr

end Sys2Proof
end

