-- ==== Sys2Proof/Machine/Spaces.lean ====
section
/-! DEFINITION. The table of the seven data spaces (10_state.md R23, R24; 20_memory.md R50). -/

namespace Sys2Proof

/-- The space with a given id; ids 7 and above do not exist (R50). -/
def Space.ofId : Nat → Option Space
  | 0 => some .raw
  | 1 => some .conv
  | 2 => some .dec
  | 3 => some .rs0
  | 4 => some .rs1
  | 5 => some .payload
  | 6 => some .err
  | _ + 7 => none

/-- The space id (R23). -/
def Space.id : Space → Nat
  | .raw => 0
  | .conv => 1
  | .dec => 2
  | .rs0 => 3
  | .rs1 => 4
  | .payload => 5
  | .err => 6

/-- The number of elements (R23). -/
def Space.len : Space → Nat
  | .raw => Config.frame
  | .conv => Config.nsym
  | .dec => Config.ndec
  | .rs0 => Config.rsn
  | .rs1 => Config.rsn
  | .payload => Config.npay
  | .err => 2

/-- PAYLOAD and ERR are read-only to the host (R24). -/
def Space.hostWritable : Space → Bool
  | .payload | .err => false
  | .raw | .conv | .dec | .rs0 | .rs1 => true

end Sys2Proof
end

