-- ==== Sys2Proof/WellFormed.lean ====
section
/-! DEFINITION. Which command words and which host accesses are well formed (30_encoding.md R73 to R75, R80;
20_memory.md R54). A command as a value of `Instr` is well formed by its type; what can be ill formed is the word or
the access the host presents. -/

namespace Sys2Proof

namespace WellFormed

/-- OP selects a command (R72, R74). -/
def opcode (w : CommandWord) : Bool :=
  match (w.extractLsb' 12 4).toNat with
  | 0x1 | 0x2 | 0x3 | 0x4 | 0x5 | 0x6 | 0x8 | 0x9 | 0xA => true
  | _ => false

/-- RSV is zero (R70, R75). -/
def reserved (w : CommandWord) : Bool := w.extractLsb' 8 4 == 0#4

/-- The must-be-zero ARG bits of the opcode are zero (R73). -/
def argument (w : CommandWord) : Bool :=
  match (w.extractLsb' 12 4).toNat with
  | 0x4 | 0x8 => w.extractLsb' 1 7 == 0#7
  | 0x9 => true
  | _ => w.extractLsb' 0 8 == 0#8

/-- A legal command word: one of the 266 of R80. -/
def word (w : CommandWord) : Bool := opcode w && reserved w && argument w

/-- A read access that R55 accepts: the space exists and the index is in range. -/
def readAccess (space i : Nat) : Bool :=
  match Space.ofId space with
  | some sp => decide (i < sp.len)
  | none => false

/-- A write access that R56 accepts: in addition the space is host-writable. -/
def writeAccess (space i : Nat) : Bool :=
  match Space.ofId space with
  | some sp => decide (i < sp.len) && sp.hostWritable
  | none => false

/-- A host action whose call contract is well formed (R54, R75, R185 class 2). -/
def action : HostAction → Bool
  | .issue w => word w
  | .memRead space i => readAccess space i
  | .memWrite space i _ => writeAccess space i
  | .regRead _ => true
  | .reset => true

end WellFormed

end Sys2Proof
end

