-- ==== Sys2Proof/Decode.lean ====
section
/-! DEFINITION. Decode (30_encoding.md R70 to R75, R80), total on every word and rejecting by name, and the encoder
(R72). Each of R72's words is written out in Tests/Slice0.lean and decoded there. -/

namespace Sys2Proof

/-- The two verdicts that reject a word (R80). -/
inductive DecodeError where
  /-- OP is one of R74's values. -/
  | illegalOpcode
  /-- RSV or a must-be-zero ARG bit is not zero (R75). -/
  | reservedField
deriving DecidableEq, Repr

/-- OP = word[15:12] (R71). -/
def opField (w : CommandWord) : BitVec 4 := w.extractLsb' 12 4

/-- RSV = word[11:8] (R71). -/
def rsvField (w : CommandWord) : BitVec 4 := w.extractLsb' 8 4

/-- ARG = word[7:0] (R71). -/
def argField (w : CommandWord) : BitVec 8 := w.extractLsb' 0 8

/-- A command without operand: ARG must be zero (R73). -/
def decodeNoArg (i : Instr) (arg : BitVec 8) : Except DecodeError Instr :=
  if arg = 0 then .ok i else .error .reservedField

/-- A command with a one-bit operand ARG[0]: ARG[7:1] must be zero (R73). -/
def decodeBitArg (mk : BitVec 1 → Instr) (arg : BitVec 8) : Except DecodeError Instr :=
  if arg.extractLsb' 1 7 = 0 then .ok (mk (arg.extractLsb' 0 1)) else .error .reservedField

/-- The opcode map (R72): what OP selects, as a reader of ARG; none for the values of R74. -/
def opcodeMap (op : BitVec 4) : Option (BitVec 8 → Except DecodeError Instr) :=
  match op.toNat with
  | 0x1 => some (decodeNoArg .deint)
  | 0x2 => some (decodeNoArg .viterbi)
  | 0x3 => some (decodeNoArg .descr)
  | 0x4 => some (decodeBitArg .rsdec)
  | 0x5 => some (decodeNoArg .assemble)
  | 0x6 => some (decodeNoArg .decode)
  | 0x8 => some (decodeBitArg .crcinit)
  | 0x9 => some (fun arg => .ok (.crcbyte arg))
  | 0xA => some (decodeNoArg .crcfin)
  | _ => none

/-- Decode(word) (R80): the opcode check first, then the reserved bits, then the command. -/
def decodeWord (w : CommandWord) : Except DecodeError Instr :=
  match opcodeMap (opField w) with
  | none => .error .illegalOpcode
  | some readArg => if rsvField w ≠ 0 then .error .reservedField else readArg (argField w)

/-- The word with the given OP and ARG and RSV = 0 (R70). -/
def assembleWord (op : BitVec 4) (arg : BitVec 8) : CommandWord := op ++ (0#4 ++ arg)

/-- The word of a command (R72). -/
def encode : Instr → CommandWord
  | .deint => assembleWord 0x1 0
  | .viterbi => assembleWord 0x2 0
  | .descr => assembleWord 0x3 0
  | .rsdec b => assembleWord 0x4 (b.setWidth 8)
  | .assemble => assembleWord 0x5 0
  | .decode => assembleWord 0x6 0
  | .crcinit m => assembleWord 0x8 (m.setWidth 8)
  | .crcbyte imm8 => assembleWord 0x9 imm8
  | .crcfin => assembleWord 0xA 0

/-- The number a host's table word stands for, as the 16-bit word the host port takes: a command has one word and no
byte order (R70, R77), so the bits are the word's own; the bits above `nbits` are zero. -/
def tableWord (nbits w : Nat) : CommandWord := BitVec.ofNat 16 (w % 2 ^ nbits)

/-- What the decoder reads from a word numbered as spec/opcode_table.json numbers it. -/
def decodeTableWord (nbits w : Nat) : Option Instr :=
  match decodeWord (tableWord nbits w) with
  | .ok i => some i
  | .error _ => none

end Sys2Proof
end

