-- ==== Sys2Proof/Machine/Params.lean ====
section
/-! DEFINITION. The values of the named parameters: the defaults of 00_scope.md R7. The spec marks every one of them
as general knowledge (93_implementation_defined.md G1 to G7; log 8). -/

namespace Sys2Proof.Machine

/-- CRC-16/ARC (R179). -/
def crc16Record : CrcRecord 16 :=
  { poly := 0x8005, init := 0x0000, refin := true, refout := true, xorout := 0x0000 }

/-- CRC-32/ISO-HDLC (R180). -/
def crc32Record : CrcRecord 32 :=
  { poly := 0x04C11DB7, init := 0xFFFFFFFF, refin := true, refout := true, xorout := 0xFFFFFFFF }

/-- SCR[0..15] (R121). -/
def scrRow0 : List Byte :=
  [0xFF, 0x48, 0x0E, 0xC0, 0x9A, 0x0D, 0x70, 0xBC, 0x8E, 0x2C, 0x93, 0xAD, 0xA7, 0xB7, 0x46, 0xCE]

/-- SCR[16..31] (R121). -/
def scrRow1 : List Byte :=
  [0x5A, 0x97, 0x7D, 0xCC, 0x32, 0xA2, 0xBF, 0x3E, 0x0A, 0x10, 0xF1, 0x88, 0x94, 0xCD, 0xEA, 0xB1]

/-- SCR[32..47] (R121). -/
def scrRow2 : List Byte :=
  [0xFE, 0x90, 0x1D, 0x81, 0x34, 0x1A, 0xE1, 0x79, 0x1C, 0x59, 0x27, 0x5B, 0x4F, 0x6E, 0x8D, 0x9C]

/-- SCR[48..63] (R121). -/
def scrRow3 : List Byte :=
  [0xB5, 0x2E, 0xFB, 0x98, 0x65, 0x45, 0x7E, 0x7C, 0x14, 0x21, 0xE3, 0x11, 0x29, 0x9B, 0xD5, 0x63]

/-- SCR[64..79] (R121). -/
def scrRow4 : List Byte :=
  [0xFD, 0x20, 0x3B, 0x02, 0x68, 0x35, 0xC2, 0xF2, 0x38, 0xB2, 0x4E, 0xB6, 0x9E, 0xDD, 0x1B, 0x39]

/-- SCR[80..95] (R121). -/
def scrRow5 : List Byte :=
  [0x6A, 0x5D, 0xF7, 0x30, 0xCA, 0x8A, 0xFC, 0xF8, 0x28, 0x43, 0xC6, 0x22, 0x53, 0x37, 0xAA, 0xC7]

/-- SCR[96..111] (R121). -/
def scrRow6 : List Byte :=
  [0xFA, 0x40, 0x76, 0x04, 0xD0, 0x6B, 0x85, 0xE4, 0x71, 0x64, 0x9D, 0x6D, 0x3D, 0xBA, 0x36, 0x72]

/-- SCR[112..127] (R121). -/
def scrRow7 : List Byte :=
  [0xD4, 0xBB, 0xEE, 0x61, 0x95, 0x15, 0xF9, 0xF0, 0x50, 0x87, 0x8C, 0x44, 0xA6, 0x6F, 0x55, 0x8F]

/-- SCR[128..143] (R121). -/
def scrRow8 : List Byte :=
  [0xF4, 0x80, 0xEC, 0x09, 0xA0, 0xD7, 0x0B, 0xC8, 0xE2, 0xC9, 0x3A, 0xDA, 0x7B, 0x74, 0x6C, 0xE5]

/-- SCR[144..159] (R121). -/
def scrRow9 : List Byte :=
  [0xA9, 0x77, 0xDC, 0xC3, 0x2A, 0x2B, 0xF3, 0xE0, 0xA1, 0x0F, 0x18, 0x89, 0x4C, 0xDE, 0xAB, 0x1F]

/-- SCR[160..175] (R121). -/
def scrRow10 : List Byte :=
  [0xE9, 0x01, 0xD8, 0x13, 0x41, 0xAE, 0x17, 0x91, 0xC5, 0x92, 0x75, 0xB4, 0xF6, 0xE8, 0xD9, 0xCB]

/-- SCR[176..191] (R121). -/
def scrRow11 : List Byte :=
  [0x52, 0xEF, 0xB9, 0x86, 0x54, 0x57, 0xE7, 0xC1, 0x42, 0x1E, 0x31, 0x12, 0x99, 0xBD, 0x56, 0x3F]

/-- SCR[192..207] (R121). -/
def scrRow12 : List Byte :=
  [0xD2, 0x03, 0xB0, 0x26, 0x83, 0x5C, 0x2F, 0x23, 0x8B, 0x24, 0xEB, 0x69, 0xED, 0xD1, 0xB3, 0x96]

/-- SCR[208..223] (R121). -/
def scrRow13 : List Byte :=
  [0xA5, 0xDF, 0x73, 0x0C, 0xA8, 0xAF, 0xCF, 0x82, 0x84, 0x3C, 0x62, 0x25, 0x33, 0x7A, 0xAC, 0x7F]

/-- SCR[224..239] (R121). -/
def scrRow14 : List Byte :=
  [0xA4, 0x07, 0x60, 0x4D, 0x06, 0xB8, 0x5E, 0x47, 0x16, 0x49, 0xD6, 0xD3, 0xDB, 0xA3, 0x67, 0x2D]

/-- SCR[240..254] (R121). -/
def scrRow15 : List Byte :=
  [0x4B, 0xBE, 0xE6, 0x19, 0x51, 0x5F, 0x9F, 0x05, 0x08, 0x78, 0xC4, 0x4A, 0x66, 0xF5, 0x58]

/-- SCR[0..254] (R121): the CCSDS pseudo-randomiser bytes. -/
def scrTable : List Byte :=
  scrRow0 ++ scrRow1 ++ scrRow2 ++ scrRow3 ++ scrRow4 ++ scrRow5 ++ scrRow6 ++ scrRow7 ++
  scrRow8 ++ scrRow9 ++ scrRow10 ++ scrRow11 ++ scrRow12 ++ scrRow13 ++ scrRow14 ++ scrRow15

/-- The parameters of this hardware: the defaults of R7. -/
def params : Params :=
  { invPhase := 1
    polyA := 0x4F
    polyB := 0x6D
    tie := .lower
    scr := scrTable
    gfpoly := 0x187
    fcr := 112
    prim := 11
    rsSentinel := 0xFF
    rsFailContent := .any
    crc16 := crc16Record
    crc32 := crc32Record }

end Sys2Proof.Machine
end

