-- ==== Sys2Proof/Machine/State.lean ====
section
/-! DEFINITION. The state of the core (10_state.md R20), what can stop a step, and the state after reset (R42). -/

namespace Sys2Proof.Machine

/-- Why a step would stop the machine: it has no constructor, because nothing stops this machine. The one fault the
spec has (60_exceptions.md R187) is raised by Issue (R74, R75), MemRead and MemWrite (R55, R56), and its entry is
described there in full, so it is a next state with STATUS.FAULT set (log 3). Safe: no run is cut short. -/
inductive Fault where
deriving DecidableEq, Repr

/-- Why a step would be refused. -/
inductive Refusal where
  /-- Raised by an arm of `exec` that gives its instruction no meaning; no arm does. Safe: nothing is claimed of such
  an instruction. -/
  | notModelled (mnemonic : String)
deriving DecidableEq, Repr

/-- The content of one byte buffer: (index, byte) cells. An element without a cell has not been written since reset
and reads as a free value (R43; log 4, 7). -/
abbrev Memory := List Host.Cell

/-- The canonical form: indices strictly rising and below the buffer's length (log 7). -/
abbrev Memory.wf (len : Nat) (m : Memory) : Prop :=
  m.Pairwise (fun a b => a.1 < b.1) ∧ ∀ c ∈ m, c.1 < len

/-- The state of the core (R20) and, after it, the model's own fields. -/
structure State where
  /-- RAW (R25). -/
  raw      : Memory
  /-- CONV (R26). -/
  conv     : Memory
  /-- DEC (R27). -/
  dec      : Memory
  /-- RS[0] (R28). -/
  rs0      : Memory
  /-- RS[1] (R28). -/
  rs1      : Memory
  /-- PAYLOAD (R29). -/
  payload  : Memory
  /-- ERR[0], two's complement (R30). -/
  err0     : Byte
  /-- ERR[1], two's complement (R30). -/
  err1     : Byte
  /-- STATUS (R31). -/
  status   : BitVec 8
  /-- CRCR (R32). -/
  crcr     : BitVec 32
  /-- CRCMODE (R33). -/
  crcmode  : BitVec 1
  /-- CRCOUT (R34). -/
  crcout   : BitVec 32
  /-- Model's own: the draw that unwritten elements read from (log 5). -/
  epoch    : Nat
  /-- Model's own: the number of the next fresh draw (log 5). -/
  draws    : Nat
  /-- Model's own: the host actions not yet performed, oldest first (log 1). -/
  pending  : List HostAction
  /-- Model's own: the values host reads have returned, newest first (log 15). -/
  replies  : List Reply
deriving DecidableEq, Repr

/-- The machine right after reset (R42): registers as the table there says, every buffer element unspecified, and
nothing yet asked of it by the host. -/
def State.reset : State :=
  { raw := [], conv := [], dec := [], rs0 := [], rs1 := [], payload := []
    err0 := params.rsSentinel, err1 := params.rsSentinel
    status := 0x00, crcr := 0, crcmode := 0, crcout := 0
    epoch := 0, draws := 1, pending := [], replies := [] }

end Sys2Proof.Machine
end

