-- ==== Sys2Proof/Machine/Flags.lean ====
section
/-! DEFINITION. The flag-like state (10_state.md R41): the fields of STATUS (R31), the cause codes (60_exceptions.md
R188), and the sign of ERR. -/

namespace Sys2Proof.Machine

/-- The fault causes (R188). -/
inductive Cause where
  | none | illegalOpcode | reservedField | badAccess | busyAccess
deriving DecidableEq, Repr

/-- The cause codes (R188); 5 to 15 are never produced. -/
def Cause.code : Cause → BitVec 4
  | .none => 0
  | .illegalOpcode => 1
  | .reservedField => 2
  | .badAccess => 3
  | .busyAccess => 4

/-- The cause a rejected word raises (R74, R75). -/
def Cause.ofDecodeError : DecodeError → Cause
  | .illegalOpcode => .illegalOpcode
  | .reservedField => .reservedField

namespace Status

/-- STATUS.BUSY, bit 0 (R31). -/
def busy (st : BitVec 8) : Bool := st.getLsbD 0
/-- STATUS.DONE, bit 1 (R31). -/
def done (st : BitVec 8) : Bool := st.getLsbD 1
/-- STATUS.FAULT, bit 2 (R31). -/
def fault (st : BitVec 8) : Bool := st.getLsbD 2
/-- STATUS bit 3, reserved (R31). -/
def reserved (st : BitVec 8) : Bool := st.getLsbD 3
/-- STATUS.CAUSE, bits 7:4 (R31). -/
def cause (st : BitVec 8) : BitVec 4 := st.extractLsb' 4 4

/-- STATUS.BUSY <- b. -/
def setBusy (b : Bool) (st : BitVec 8) : BitVec 8 := if b then st ||| 0x01 else st &&& 0xFE
/-- STATUS.DONE <- b. -/
def setDone (b : Bool) (st : BitVec 8) : BitVec 8 := if b then st ||| 0x02 else st &&& 0xFD
/-- STATUS.FAULT <- 1; only reset clears it (R31). -/
def setFault (st : BitVec 8) : BitVec 8 := st ||| 0x04
/-- STATUS.CAUSE <- c. -/
def setCause (c : BitVec 4) (st : BitVec 8) : BitVec 8 := c ++ st.extractLsb' 0 4

/-- A STATUS value the core can hold between atomic steps: BUSY and bit 3 are 0, CAUSE is 0 exactly when FAULT is 0,
CAUSE is at most 4, and DONE excludes FAULT (R31, R188, U13). -/
def legal (st : BitVec 8) : Bool :=
  !busy st && !reserved st && (fault st == (cause st != 0)) && decide ((cause st).toNat ≤ 4) && !(done st && fault st)

end Status

/-- The "uncorrectable" indication: the sign of an ERR element (R41). -/
def uncorrectable (err : Byte) : Bool := err.msb

/-- The legal values of ERR[b]: 0..16 and RS_SENTINEL (R30). -/
def errLegal (err : Byte) : Bool := decide (err.toNat ≤ 16) || err == params.rsSentinel

end Sys2Proof.Machine
end

