-- ==== Sys2Proof/Machine/Ops.lean ====
section
/-! DEFINITION. The named operations over buffers and registers: reading and writing an element (10_state.md R10, R43),
overwriting a whole buffer, the fault primitive (60_exceptions.md R187), the command wrapper (30_encoding.md R81) and
the reset event (70_reset_and_hazards.md R205), the only exit from the fault state (R193). -/

namespace Sys2Proof.Machine

namespace Memory

/-- The cell of an element, if it has one. -/
def find : Memory → Nat → Option Byte
  | [], _ => none
  | (a, v) :: m, i => if a = i then some v else find m i

/-- Writing one element; keeps the canonical form. -/
def set : Memory → Nat → Byte → Memory
  | [], i, v => [(i, v)]
  | (a, w) :: m, i, v =>
    if i < a then (i, v) :: (a, w) :: m
    else if i = a then (i, v) :: m
    else (a, w) :: set m i v

/-- The cells of consecutive elements from index `i` on. -/
def cellsFrom : Nat → List Byte → Memory
  | _, [] => []
  | i, b :: bs => (i, b) :: cellsFrom (i + 1) bs

/-- A buffer all of whose elements are written, in index order. -/
def ofBytes (bs : List Byte) : Memory := cellsFrom 0 bs

end Memory

/-- What an element that nothing has written reads as (R43): the free byte of the current epoch (log 4). -/
def unwritten (epoch : Nat) (sp : Space) (i : Nat) : Byte := Config.freeByte epoch sp.id i

/-- An element of a byte buffer. -/
def readCell (epoch : Nat) (sp : Space) (m : Memory) (i : Nat) : Byte :=
  (Memory.find m i).getD (unwritten epoch sp i)

namespace State

/-- `B[i]` (R10): element i of a space. ERR's two elements are registers (R30). -/
def element (s : State) (sp : Space) (i : Nat) : Byte :=
  match sp with
  | .raw => readCell s.epoch .raw s.raw i
  | .conv => readCell s.epoch .conv s.conv i
  | .dec => readCell s.epoch .dec s.dec i
  | .rs0 => readCell s.epoch .rs0 s.rs0 i
  | .rs1 => readCell s.epoch .rs1 s.rs1 i
  | .payload => readCell s.epoch .payload s.payload i
  | .err => if i = 0 then s.err0 else s.err1

/-- A whole space, in index order. -/
def bytes (s : State) (sp : Space) : List Byte := (List.range sp.len).map (s.element sp)

/-- `B[i] <- v` (R10). -/
def setElement (s : State) (sp : Space) (i : Nat) (v : Byte) : State :=
  match sp with
  | .raw => { s with raw := Memory.set s.raw i v }
  | .conv => { s with conv := Memory.set s.conv i v }
  | .dec => { s with dec := Memory.set s.dec i v }
  | .rs0 => { s with rs0 := Memory.set s.rs0 i v }
  | .rs1 => { s with rs1 := Memory.set s.rs1 i v }
  | .payload => { s with payload := Memory.set s.payload i v }
  | .err => if i = 0 then { s with err0 := v } else { s with err1 := v }

/-- Every element of CONV is written. -/
def setConv (s : State) (bs : List Byte) : State := { s with conv := Memory.ofBytes bs }
/-- Every element of DEC is written. -/
def setDec (s : State) (bs : List Byte) : State := { s with dec := Memory.ofBytes bs }
/-- Every element of RS[0] is written. -/
def setRs0 (s : State) (bs : List Byte) : State := { s with rs0 := Memory.ofBytes bs }
/-- Every element of RS[1] is written. -/
def setRs1 (s : State) (bs : List Byte) : State := { s with rs1 := Memory.ofBytes bs }
/-- Every element of PAYLOAD is written. -/
def setPayload (s : State) (bs : List Byte) : State := { s with payload := Memory.ofBytes bs }

/-- STATUS is rewritten by `f`. -/
def onStatus (f : BitVec 8 → BitVec 8) (s : State) : State := { s with status := f s.status }

/-- STATUS.BUSY. -/
def busy (s : State) : Bool := Status.busy s.status
/-- STATUS.FAULT. -/
def faulted (s : State) : Bool := Status.fault s.status

/-- `n` fresh free draws have been used (R10 `any`). -/
def useDraws (s : State) (n : Nat) : State := { s with draws := s.draws + n }

/-- A host read returned a value. -/
def answer (r : Reply) (s : State) : State := { s with replies := r :: s.replies }

end State

/-- `raise Fault(cause)` (R187): the first cause is kept; nothing but STATUS changes. There is no handler and nothing
is saved (R192). -/
def raiseFault (c : Cause) (s : State) : State :=
  let entered := if s.faulted then s else s.onStatus (Status.setCause c.code ∘ Status.setFault)
  entered.onStatus (Status.setBusy false ∘ Status.setDone false)

/-- The lines of Issue before a command's rule (R81). -/
def beginCommand (s : State) : State := s.onStatus (Status.setBusy true ∘ Status.setDone false)

/-- The lines of Issue after a command's rule (R81). -/
def endCommand (s : State) : State := s.onStatus (Status.setDone true ∘ Status.setBusy false)

/-- Issue of a decoded command whose rule is `effect` (R81): refused without any state change while FAULT = 1 (R194),
otherwise run to completion as one atomic step (R58). -/
def runCommand (effect : State → State) (s : State) : Host.Outcome State Fault Refusal :=
  if s.faulted then .next s else .next (endCommand (effect (beginCommand s)))

/-- Issue of a word that decodes to no command (R74, R75, R81): refused while FAULT = 1, otherwise the fault. -/
def rejectWord (e : DecodeError) (s : State) : Host.Outcome State Fault Refusal :=
  if s.faulted then .next s
  else .next (raiseFault (Cause.ofDecodeError e) (s.onStatus (Status.setDone false)))

/-- The reset event (R205, R42): every piece of state takes its reset value, the buffers become unspecified anew (a
fresh draw), and what the host has asked and been told is the host's own (log 17). -/
def resetEvent (s : State) : State :=
  { State.reset with epoch := s.draws, draws := s.draws + 1, pending := s.pending, replies := s.replies }

end Sys2Proof.Machine
end

