-- ==== Sys2Proof/Machine/Operands.lean ====
section
/-! DEFINITION. The operand forms of the commands (30_encoding.md R73): a block number b selects RS[b] and ERR[b]
(43_reed_solomon.md R130), a variant m and the register CRCMODE select a CRC record (45_crc.md R170). Every other
operand is a fixed buffer. -/

namespace Sys2Proof.Machine

/-- The space of RS[b] (R23). -/
def blockSpace (b : BitVec 1) : Space := if b = 0 then .rs0 else .rs1

namespace State

/-- RS[b], its 160 symbols in index order (R28). -/
def block (s : State) (b : BitVec 1) : List Byte := s.bytes (blockSpace b)

/-- RS[b] is written completely. -/
def setBlock (s : State) (b : BitVec 1) (bs : List Byte) : State :=
  if b = 0 then s.setRs0 bs else s.setRs1 bs

/-- ERR[b] (R30). -/
def errOf (s : State) (b : BitVec 1) : Byte := if b = 0 then s.err0 else s.err1

/-- ERR[b] <- v. -/
def setErr (s : State) (b : BitVec 1) (v : Byte) : State :=
  if b = 0 then { s with err0 := v } else { s with err1 := v }

end State

/-- The 160 free bytes of one fresh draw for RS[b] (R147). -/
def freeBlock (draw : Nat) (b : BitVec 1) : List Byte :=
  (List.range Config.rsn).map (Config.freeByte draw (blockSpace b).id)

end Sys2Proof.Machine
end

