-- ==== Sys2Proof/Machine/Crc.lean ====
section
/-! DEFINITION. The CRC engine (45_crc.md). -/

namespace Sys2Proof.Machine

/-- `rev_W(v)` (R9): bit i of the result is bit W-1-i of v. -/
def rev {w : Nat} (v : BitVec w) : BitVec w := v.reverse

/-- One of the eight iterations (R172): the top bit is tested before the shift, the polynomial applied after it. -/
def crcShift {w : Nat} (c : CrcRecord w) (r : BitVec w) : BitVec w :=
  if r.msb then (r <<< 1) ^^^ c.poly else r <<< 1

/-- Absorb one message byte into a W-bit register (R172). -/
def crcAbsorb {w : Nat} (c : CrcRecord w) (r : BitVec w) (imm8 : Byte) : BitVec w :=
  let d := if c.refin then rev imm8 else imm8
  (crcShift c)^[8] (r ^^^ (d.setWidth w <<< (w - 8)))

/-- Finalise a W-bit register (R173). -/
def crcFinal {w : Nat} (c : CrcRecord w) (r : BitVec w) : BitVec w :=
  (if c.refout then rev r else r) ^^^ c.xorout

/-- The rule of CRCINIT m (R171). -/
def crcinitEffect (m : BitVec 1) (s : State) : State :=
  { s with crcmode := m
           crcr := if m = 0 then params.crc16.init.setWidth 32 else params.crc32.init.setWidth 32 }

/-- The rule of CRCBYTE imm8 (R172): CRCMODE selects the record (R170). -/
def crcbyteEffect (imm8 : BitVec 8) (s : State) : State :=
  { s with crcr :=
      if s.crcmode = 0 then (crcAbsorb params.crc16 (s.crcr.setWidth 16) imm8).setWidth 32
      else (crcAbsorb params.crc32 (s.crcr.setWidth 32) imm8).setWidth 32 }

/-- The rule of CRCFIN (R173): CRCR and CRCMODE are unchanged. -/
def crcfinEffect (s : State) : State :=
  { s with crcout :=
      if s.crcmode = 0 then (crcFinal params.crc16 (s.crcr.setWidth 16)).setWidth 32
      else (crcFinal params.crc32 (s.crcr.setWidth 32)).setWidth 32 }

/-- CRCINIT m (R171). -/
def execCrcinit (m : BitVec 1) (s : State) : Host.Outcome State Fault Refusal := runCommand (crcinitEffect m) s

/-- CRCBYTE imm8 (R172). -/
def execCrcbyte (imm8 : BitVec 8) (s : State) : Host.Outcome State Fault Refusal := runCommand (crcbyteEffect imm8) s

/-- CRCFIN (R173). -/
def execCrcfin (s : State) : Host.Outcome State Fault Refusal := runCommand crcfinEffect s

end Sys2Proof.Machine
end

