-- ==== Sys2Proof/Machine/Deint.lean ====
section
/-! DEFINITION. The Deinterleaver (40_deinterleaver.md). -/

namespace Sys2Proof.Machine

/-- One advance of the offset register OFF (R90): add 80, and subtract 5199 when the frame length is reached. -/
def nextOffset (off : Nat) : Nat :=
  if off + Config.cols ≥ Config.frame then off + Config.cols - (Config.frame - 1) else off + Config.cols

/-- The polarity inversion of stream element k (R92): s becomes 255 - s on the indices of parity INV_PHASE. -/
def invert (P : Params) (k : Nat) (s : Byte) : Byte := if k % 2 = P.invPhase then 255 - s else s

/-- The walk of R90: `n` elements still to emit, stream index `k`, offset `off`. -/
def deintWalk (P : Params) (raw : Nat → Byte) : (n k off : Nat) → List Byte
  | 0, _, _ => []
  | n + 1, k, off => invert P k (raw off) :: deintWalk P raw n (k + 1) (nextOffset off)

/-- The rule of DEINT (R90): the walk starts at offset 1 and emits 5132 elements. -/
def deintEffect (s : State) : State :=
  s.setConv (deintWalk params (s.element .raw) Config.nsym 0 1)

/-- DEINT (R90). -/
def execDeint (s : State) : Host.Outcome State Fault Refusal := runCommand deintEffect s

end Sys2Proof.Machine
end

