-- ==== Sys2Proof/Machine/Descr.lean ====
section
/-! DEFINITION. The Descrambler/Splitter (42_descrambler_splitter.md). -/

namespace Sys2Proof.Machine

/-- SCR[i mod 255] (R120, R123). -/
def scrByte (P : Params) (i : Nat) : Byte := P.scr.getD (i % Config.scrper) 0

/-- The descrambled block (R120): DEC[i] ^ SCR[i mod 255]. -/
def descramble (P : Params) (dec : Nat → Byte) : List Byte :=
  (List.range Config.ndec).map fun i => dec i ^^^ scrByte P i

/-- Alternate writes (R120): the even positions in order and the odd positions in order. -/
def deal : List Byte → List Byte × List Byte
  | [] => ([], [])
  | [v] => ([v], [])
  | v :: w :: vs => (v :: (deal vs).1, w :: (deal vs).2)

/-- The rule of DESCR (R120). -/
def descrEffect (s : State) : State :=
  let blocks := deal (descramble params (s.element .dec))
  (s.setRs0 blocks.1).setRs1 blocks.2

/-- DESCR (R120). -/
def execDescr (s : State) : Host.Outcome State Fault Refusal := runCommand descrEffect s

/-- The bit sequence of R122 from a register z[0..7], bit i of the word being z[i]: one output bit a shift. -/
def lfsrBits : (n : Nat) → (z : BitVec 8) → List Bool
  | 0, _ => []
  | n + 1, z =>
    let fed := z.getLsbD 0 ^^ z.getLsbD 3 ^^ z.getLsbD 5 ^^ z.getLsbD 7
    z.getLsbD 0 :: lfsrBits n ((z >>> 1) ||| (BitVec.ofBool fed).setWidth 8 <<< 7)

end Sys2Proof.Machine
end

