-- ==== Sys2Proof/Machine/Galois.lean ====
section
/-! DEFINITION. The field GF(256) and the code's roots (43_reed_solomon.md R131 to R135). -/

namespace Sys2Proof.Machine

/-- Field addition and subtraction (R131). -/
def gadd (a b : Byte) : Byte := a ^^^ b

/-- The carry-less product of two bytes, up to 15 bits (R132). -/
def carrylessProduct (a b : Nat) : Nat :=
  (List.range 8).foldl (fun p i => if b.testBit i then p ^^^ (a <<< i) else p) 0

/-- Reduction of a 15-bit polynomial modulo the field polynomial (R132). -/
def reducePoly (poly p : Nat) : Nat :=
  [14, 13, 12, 11, 10, 9, 8].foldl (fun p i => if p.testBit i then p ^^^ (poly <<< (i - 8)) else p) p

/-- Field multiplication (R132). -/
def gmul (P : Params) (a b : Byte) : Byte :=
  BitVec.ofNat 8 (reducePoly P.gfpoly.toNat (carrylessProduct a.toNat b.toNat))

/-- `f v` with `v` evaluated first (so that a chain of field operations evaluates step by step); it is `f v`, see
`force_eq`. -/
def force {α : Type} (v : Byte) (f : Byte → α) : α :=
  match v.toNat with
  | 0 => f 0
  | n + 1 => f (BitVec.ofNat 8 (n + 1))

/-- `n` successive powers of alpha from `a` on. -/
def powersFrom (P : Params) : (n : Nat) → (a : Byte) → List Byte
  | 0, _ => []
  | n + 1, a => a :: force (gmul P a 0x02) (powersFrom P n)

/-- The antilog table EXP[0..254] (R133). -/
def expTable (P : Params) : List Byte := powersFrom P Config.nn 0x01

/-- EXP[i] (R133). -/
def gexp (P : Params) (i : Nat) : Byte := (expTable P).getD i 0

/-- LOG[a] (R133): the i with EXP[i] = a; of zero, a free value that no rule reads (U15; log 12). -/
def glog (P : Params) (a : Byte) : Nat := if a = 0 then Config.glogZero else (expTable P).idxOf a

/-- The inverse (R133): EXP[(255 - LOG[a]) mod 255]; of zero, a free value (U15; log 12). -/
def ginv (P : Params) (a : Byte) : Byte :=
  if a = 0 then Config.ginvZero else gexp P ((Config.nn - glog P a) % Config.nn)

/-- `gpow(a, e)` (R134); for a = 0, where R134 defines nothing, a free value (log 12). -/
def gpow (P : Params) (a : Byte) (e : Int) : Byte :=
  if a = 0 then Config.gpowZero e else gexp P (((glog P a : Int) * e) % Config.nn).toNat

/-- `bpow(e)`: beta^e with beta = alpha^PRIM (R134). -/
def bpow (P : Params) (e : Int) : Byte := gexp P (((P.prim : Int) * e) % Config.nn).toNat

/-- ROOT[i] = beta^(FCR + i) (R135). -/
def root (P : Params) (i : Nat) : Byte := bpow P ((P.fcr + i : Nat) : Int)

/-- The value at x of the polynomial whose coefficients are listed with the constant term first, by Horner's rule
(R142: from the highest coefficient down). -/
def evalPoly (P : Params) (coeffs : List Byte) (x : Byte) : Byte :=
  coeffs.foldr (fun c y => gadd (gmul P y x) c) 0

/-- Horner's rule over a word in index order, from the value `y` (R138). -/
def hornerFrom (P : Params) (x : Byte) : (r : List Byte) → (y : Byte) → Byte
  | [], y => y
  | c :: r, y => force (gadd (gmul P y x) c) (hornerFrom P x r)

/-- The value at x of the word r[0..], element 0 having the highest power (R136, R138). -/
def evalWord (P : Params) (r : List Byte) (x : Byte) : Byte := hornerFrom P x r 0

end Sys2Proof.Machine
end

