-- ==== Sys2Proof/Machine/ReedSolomon.lean ====
section
/-! DEFINITION. The Reed-Solomon decoder (43_reed_solomon.md R130 to R151), by the reference algorithm of R150. The
scratch of R39 is local to the command (R36). -/

namespace Sys2Proof.Machine

/-- The syndromes SYN[0..31] (R138). -/
def syndromes (P : Params) (r : List Byte) : List Byte :=
  (List.range Config.nroots).map fun i => evalWord P r (root P i)

/-- The working set of the Berlekamp-Massey unit (R39, R140): LAM, BPOL (33 coefficients each, index = power of x),
LEN, MSH, BDISC. -/
structure BmState where
  lam   : List Byte
  bpol  : List Byte
  len   : Nat
  msh   : Nat
  bdisc : Byte
deriving DecidableEq, Repr

/-- The constant polynomial 1 as 33 coefficients (R140). -/
def onePoly : List Byte := 1 :: List.replicate Config.nroots 0

/-- The unit's start (R140). -/
def bmStart : BmState := { lam := onePoly, bpol := onePoly, len := 0, msh := 1, bdisc := 1 }

/-- The discrepancy d of iteration n (R140). -/
def discrepancy (P : Params) (syn lam : List Byte) (len n : Nat) : Byte :=
  (List.range len).foldl (fun d k => d ^^^ gmul P (lam.getD (k + 1) 0) (syn.getD (n - (k + 1)) 0)) (syn.getD n 0)

/-- LAM[i+MSH] <- LAM[i+MSH] ^ gmul(q, BPOL[i]) for i in 0..(32 - MSH) (R140). -/
def addShifted (P : Params) (lam bpol : List Byte) (q : Byte) (msh : Nat) : List Byte :=
  (List.range (Config.nroots + 1)).map fun k =>
    if msh ≤ k then lam.getD k 0 ^^^ gmul P q (bpol.getD (k - msh) 0) else lam.getD k 0

/-- Iteration n (R140). -/
def bmStep (P : Params) (syn : List Byte) (st : BmState) (n : Nat) : BmState :=
  let d := discrepancy P syn st.lam st.len n
  if d = 0 then { st with msh := st.msh + 1 }
  else
    let lam := addShifted P st.lam st.bpol (gmul P d (ginv P st.bdisc)) st.msh
    if 2 * st.len ≤ n then { lam := lam, bpol := st.lam, len := n + 1 - st.len, msh := 1, bdisc := d }
    else { st with lam := lam, msh := st.msh + 1 }

/-- The Berlekamp-Massey unit (R140): LAM and LEN after the 32 iterations. -/
def berlekampMassey (P : Params) (syn : List Byte) : BmState :=
  (List.range Config.nroots).foldl (bmStep P syn) bmStart

/-- The Chien search (R142): every power p in 0..254 with LAM(beta^-p) = 0, in rising order. Its length is NLOC; the
spec stores the first 16 only, which are all of them wherever they are used (log 24). -/
def chienSearch (P : Params) (lam : List Byte) : List Nat :=
  (List.range Config.nn).filter fun p => evalPoly P lam (bpow P (-(p : Int))) = 0

/-- The evaluator polynomial OMG[0..31] (R143). -/
def omega (P : Params) (syn lam : List Byte) : List Byte :=
  (List.range Config.nroots).map fun i =>
    (List.range (i + 1)).foldl (fun o k => o ^^^ gmul P (syn.getD (i - k) 0) (lam.getD k 0)) 0

/-- The formal derivative of LAM (R143): LAM[1] + LAM[3] x^2 + ... + LAM[31] x^30. -/
def derivative (lam : List Byte) : List Byte :=
  (List.range (Config.nroots - 1)).map fun k => if k % 2 = 0 then lam.getD (k + 1) 0 else 0

/-- The error value at power p (R143); none when the denominator is zero. -/
def errorValue (P : Params) (lam omg : List Byte) (p : Nat) : Option Byte :=
  let xi := bpow P (-(p : Int))
  let den := evalPoly P (derivative lam) xi
  if den = 0 then none
  else some (gmul P (gmul P (evalPoly P omg xi) (ginv P den)) (bpow P ((1 - (P.fcr : Int)) * p)))

/-- The error values of the located powers, or none if one denominator is zero (R143, R146 (d)). -/
def errorValues (P : Params) (lam omg : List Byte) : List Nat → Option (List (Nat × Byte))
  | [] => some []
  | p :: ps =>
    match errorValue P lam omg p, errorValues P lam omg ps with
    | some e, some es => some ((p, e) :: es)
    | _, _ => none

/-- The error corrector (R144): r[159 - p] <- r[159 - p] ^ e_p. -/
def applyErrors (r : List Byte) : List (Nat × Byte) → List Byte
  | [] => r
  | (p, e) :: es => applyErrors (r.set (Config.rsn - 1 - p) (r.getD (Config.rsn - 1 - p) 0 ^^^ e)) es

/-- What RSDEC finds (R130): a corrected word and the count, or the uncorrectable verdict. -/
inductive RsVerdict where
  | corrected (word : List Byte) (count : Nat)
  | uncorrectable
deriving DecidableEq, Repr

/-- The reference algorithm (R150) on the received word. -/
def rsDecode (P : Params) (r : List Byte) : RsVerdict :=
  let syn := syndromes P r
  if syn.all (· == 0) then .corrected r 0
  else
    let bm := berlekampMassey P syn
    if bm.len > Config.tcorr then .uncorrectable
    else
      let locp := chienSearch P bm.lam
      if locp.length ≠ bm.len then .uncorrectable
      else if locp.any (fun p => decide (Config.rsn ≤ p)) then .uncorrectable
      else
        match errorValues P bm.lam (omega P syn bm.lam) locp with
        | some es => .corrected (applyErrors r es) bm.len
        | none => .uncorrectable

namespace RsVerdict

/-- ERR[b] after the verdict (R145, R146). -/
def err (P : Params) : RsVerdict → Byte
  | .corrected _ count => BitVec.ofNat 8 count
  | .uncorrectable => P.rsSentinel

/-- RS[b] after the verdict: the corrected word; or, when uncorrectable, unspecified (R147): `free`, the bytes of a
fresh draw, unless RS_FAIL_CONTENT says the block is left as it was (log 6). -/
def content (P : Params) (old free : List Byte) : RsVerdict → List Byte
  | .corrected word _ => word
  | .uncorrectable =>
    match P.rsFailContent with
    | .any => free
    | .unchanged => old

/-- The free draws the verdict uses. -/
def drawsUsed (P : Params) : RsVerdict → Nat
  | .corrected _ _ => 0
  | .uncorrectable =>
    match P.rsFailContent with
    | .any => 1
    | .unchanged => 0

end RsVerdict

/-- The rule of RSDEC b (R130, R150): RS[b] and ERR[b] as the verdict says. -/
def rsdecEffect (b : BitVec 1) (s : State) : State :=
  let v := rsDecode params (s.block b)
  ((s.setBlock b (v.content params (s.block b) (freeBlock s.draws b))).setErr b (v.err params)).useDraws
    (v.drawsUsed params)

/-- RSDEC b (R130). -/
def execRsdec (b : BitVec 1) (s : State) : Host.Outcome State Fault Refusal := runCommand (rsdecEffect b) s

end Sys2Proof.Machine
end

