-- ==== Sys2Proof/Machine/Viterbi.lean ====
section
/-! DEFINITION. The Viterbi decoder (41_viterbi.md). Trellis states, registers R and metrics are numbers (R102, R107);
the scratch of R38 is local to the command (R36). -/

namespace Sys2Proof.Machine

/-- `parity(v)`: the exclusive-or of all bits of v (R9). -/
def parity {n : Nat} (v : BitVec n) : Bool := (List.range n).foldl (fun p i => p ^^ v.getLsbD i) false

/-- The predecessor j of state s (R102). -/
def pred (s j : Nat) : Nat := (s >>> 1) ||| (j <<< 5)

/-- The encoder register on the branch from `pred s j` to s (R102). -/
def branchReg (s j : Nat) : Nat := s ||| (j <<< 6)

/-- The code symbol a tap mask forms from a register value (R101, R102). -/
def codeSymbol (mask : BitVec 7) (r : Nat) : Bool := parity (BitVec.ofNat 7 r &&& mask)

/-- The distance of a soft bit from an expected code symbol (R103). -/
def softDist (x : Byte) (c : Bool) : Nat := (x ^^^ (if c then 0xFF else 0x00)).toNat

/-- The branch metric into state s over predecessor j, from the step's two soft bits (R103). -/
def branchMetric (P : Params) (x0 x1 : Byte) (s j : Nat) : Nat :=
  softDist x0 (codeSymbol P.polyA (branchReg s j)) + softDist x1 (codeSymbol P.polyB (branchReg s j))

/-- INF (R104). -/
def metricInf : Nat := 2 ^ 24

/-- The initial path metrics (R104): the decoder starts in state 0. -/
def initialMetrics : List Nat := 0 :: List.replicate (Config.nstate - 1) metricInf

/-- Whether the candidate of j = 1 is selected (R105, TIE). -/
def selectsUpper : TieRule → (cand0 cand1 : Nat) → Bool
  | .lower, cand0, cand1 => decide (cand1 < cand0)
  | .upper, cand0, cand1 => decide (cand1 ≤ cand0)

/-- Add-compare-select for state s (R105): the new metric and the decision. -/
def acs (P : Params) (pm : List Nat) (x0 x1 : Byte) (s : Nat) : Nat × Bool :=
  let cand0 := pm.getD (pred s 0) metricInf + branchMetric P x0 x1 s 0
  let cand1 := pm.getD (pred s 1) metricInf + branchMetric P x0 x1 s 1
  if selectsUpper P.tie cand0 cand1 then (cand1, true) else (cand0, false)

/-- All 64 states of one step, from the old metrics (R105). -/
def acsStep (P : Params) (pm : List Nat) (x : Byte × Byte) : List (Nat × Bool) :=
  (List.range Config.nstate).map (acs P pm x.1 x.2)

/-- The final metrics and the decisions of all steps, newest step first (R105, R106). -/
def acsRun (P : Params) : (steps : List (Byte × Byte)) → (pm : List Nat) → (decn : List (List Bool)) →
    List Nat × List (List Bool)
  | [], pm, decn => (pm, decn)
  | x :: xs, pm, decn =>
    let row := acsStep P pm x
    acsRun P xs (row.map Prod.fst) (row.map Prod.snd :: decn)

/-- The traceback (R108) over the decisions, newest first, from state `tbs`; the recovered input bits come out oldest
first, before those in `ubit`. -/
def traceback : (decn : List (List Bool)) → (tbs : Nat) → (ubit : List Bool) → List Bool
  | [], _, ubit => ubit
  | d :: decn, tbs, ubit =>
    traceback decn ((tbs >>> 1) ||| ((d.getD tbs false).toNat <<< 5)) (tbs.testBit 0 :: ubit)

/-- Eight bits as a byte, the earliest in bit 7 (R109). -/
def packByte (bits : List Bool) : Byte :=
  BitVec.ofNat 8 ((List.range 8).foldl (fun v i => v + ((bits.getD i false).toNat <<< (7 - i))) 0)

/-- Output packing (R109): byte j takes bits 8j..8j+7; bits past the last byte are dropped. -/
def packBits (n : Nat) (ubit : List Bool) : List Byte :=
  (List.range n).map fun j => packByte ((ubit.drop (8 * j)).take 8)

/-- The soft-bit pairs CONV[2t], CONV[2t+1] of the trellis steps (R26). -/
def softPairs (conv : Nat → Byte) : List (Byte × Byte) :=
  (List.range Config.nstep).map fun t => (conv (2 * t), conv (2 * t + 1))

/-- The bits UBIT[0..2565] of R108. -/
def viterbiBits (P : Params) (conv : Nat → Byte) : List Bool :=
  traceback (acsRun P (softPairs conv) initialMetrics []).2 0 []

/-- The rule of VITERBI (R110). -/
def viterbiEffect (s : State) : State :=
  s.setDec (packBits Config.ndec (viterbiBits params (s.element .conv)))

/-- VITERBI (R100). -/
def execViterbi (s : State) : Host.Outcome State Fault Refusal := runCommand viterbiEffect s

end Sys2Proof.Machine
end

