-- ==== Sys2Proof/Machine/Pipeline.lean ====
section
/-! DEFINITION. Payload assembly and the whole pipeline (44_payload_and_pipeline.md). -/

namespace Sys2Proof.Machine

/-- The rule of ASSEMBLE (R160): PAYLOAD[i] <- RS[i mod 2][i div 2]; ERR is not read (R164). -/
def assembleEffect (s : State) : State :=
  s.setPayload ((List.range Config.npay).map fun i => s.element (blockSpace (BitVec.ofNat 1 (i % 2))) (i / 2))

/-- ASSEMBLE (R160). -/
def execAssemble (s : State) : Host.Outcome State Fault Refusal := runCommand assembleEffect s

/-- The rule of DECODE (R161): the six stages in their fixed order (R162). -/
def decodeEffect (s : State) : State :=
  assembleEffect (rsdecEffect 1 (rsdecEffect 0 (descrEffect (viterbiEffect (deintEffect s)))))

/-- DECODE (R161). -/
def execDecode (s : State) : Host.Outcome State Fault Refusal := runCommand decodeEffect s

end Sys2Proof.Machine
end

