-- ==== Sys2Proof/Machine/Dispatch.lean ====
section
/-! DEFINITION. One arm per command (30_encoding.md R72). -/

namespace Sys2Proof.Machine

def exec (i : Instr) (s : State) : Host.Outcome State Fault Refusal :=
  match i with
  | .deint => Sys2Proof.Machine.execDeint s
  | .viterbi => Sys2Proof.Machine.execViterbi s
  | .descr => Sys2Proof.Machine.execDescr s
  | .rsdec b => Sys2Proof.Machine.execRsdec b s
  | .assemble => Sys2Proof.Machine.execAssemble s
  | .decode => Sys2Proof.Machine.execDecode s
  | .crcinit m => Sys2Proof.Machine.execCrcinit m s
  | .crcbyte imm8 => Sys2Proof.Machine.execCrcbyte imm8 s
  | .crcfin => Sys2Proof.Machine.execCrcfin s

end Sys2Proof.Machine
end

