-- ==== Sys2Proof/Machine/HostPort.lean ====
section
/-! DEFINITION. The host's actions (20_memory.md R55 to R57; 30_encoding.md R81; 70_reset_and_hazards.md R205) and the
access made while BUSY = 1 (60_exceptions.md R188, R189). -/

namespace Sys2Proof.Machine

/-- The element a (space, index) pair names, if it exists (R50, R54). -/
def location (space i : Nat) : Option Space :=
  match Space.ofId space with
  | some sp => if i < sp.len then some sp else none
  | none => none

/-- A read that transfers nothing returns `any` (R55, R194; log 11). -/
def answerAny (space i : Nat) (s : State) : State :=
  (s.answer (.element (Config.freeByte s.draws space i))).useDraws 1

/-- MemRead(space, i) (R55; while FAULT = 1, R194). -/
def memRead (space i : Nat) (s : State) : State :=
  match location space i with
  | some sp => s.answer (.element (s.element sp i))
  | none => answerAny space i (if s.faulted then s else raiseFault .badAccess s)

/-- MemWrite(space, i, v) (R56): ignored while FAULT = 1. -/
def memWrite (space i : Nat) (v : Byte) (s : State) : State :=
  if s.faulted then s
  else
    match location space i with
    | some sp => if sp.hostWritable then s.setElement sp i v else raiseFault .badAccess s
    | none => raiseFault .badAccess s

/-- RegRead(name) (R57): the whole register, in every state. -/
def regRead (name : RegName) (s : State) : State :=
  match name with
  | .status => s.answer (.status s.status)
  | .crcr => s.answer (.crcr s.crcr)
  | .crcmode => s.answer (.crcmode s.crcmode)
  | .crcout => s.answer (.crcout s.crcout)

/-- Issue(word) (R81). -/
def issue (w : CommandWord) (s : State) : Host.Outcome State Fault Refusal :=
  match decodeWord w with
  | .ok i => exec i s
  | .error e => rejectWord e s

/-- One host action on a core that is not busy. -/
def perform (a : HostAction) (s : State) : Host.Outcome State Fault Refusal :=
  match a with
  | .issue w => issue w s
  | .memRead space i => .next (memRead space i s)
  | .memWrite space i v => .next (memWrite space i v s)
  | .regRead name => .next (regRead name s)
  | .reset => .next (resetEvent s)

/-- The actions the busy hazard concerns (R210); RegRead never faults (R189) and is allowed in every state (R57), and
reset may be applied in any state (R205). -/
def needsIdle : HostAction → Bool
  | .issue _ | .memRead _ _ | .memWrite _ _ _ => true
  | .regRead _ | .reset => false

/-- The fault BUSY_ACCESS (R188); a read it stops returns `any` (R55). -/
def busyFault (a : HostAction) (s : State) : State :=
  match a with
  | .memRead space i => answerAny space i (raiseFault .busyAccess s)
  | _ => raiseFault .busyAccess s

/-- The oldest pending action `a` of a state whose later actions are `rest`. While BUSY = 1 (no step leaves it so) a
command or a buffer access is held off or faults, as BUSY_POLICY says (D30; log 10). -/
def hostStep (a : HostAction) (rest : List HostAction) (s : State) : Host.Outcome State Fault Refusal :=
  if s.busy && needsIdle a then
    match Config.busyPolicy with
    | .stall => .next s
    | .fault => .next (busyFault a { s with pending := rest })
  else perform a { s with pending := rest }

end Sys2Proof.Machine
end

