-- ==== Sys2Proof/Machine/Step.lean ====
section
/-! DEFINITION. One step: the core performs the host's oldest pending action, and idles when there is none (00_scope.md
R13; 20_memory.md R58; log 1). -/

namespace Sys2Proof.Machine

/-- One atomic step (R58). The core has no program counter and fetches nothing (R21). -/
def step (s : State) : Host.Outcome State Fault Refusal :=
  match s.pending with
  | [] => .next s
  | a :: rest => hostStep a rest s

/-- The host is about to issue the given word: it stands before every other pending action (log 2). -/
def State.withFetchWord (s : State) (nbits w : Nat) : State :=
  { s with pending := .issue (tableWord nbits w) :: s.pending }

end Sys2Proof.Machine
end

