-- ==== Sys2Proof/Machine/Reference.lean ====
section
/-! DEFINITION. What the rules name beside the commands and the statements are written in: the closed form of the
interleaver (40_deinterleaver.md R91, R95), the convolutional encoder and the cost of an input sequence (41_viterbi.md
R101, R111), the code of the Reed-Solomon decoder (43_reed_solomon.md R135 to R137, R152), the transmitter's
scramble-and-merge (42_descrambler_splitter.md R125), the forward encoder (95_test_vectors.md section 3), and the CRC
functions (45_crc.md R174, R177). No command uses them. -/

namespace Sys2Proof.Machine

/-- src(k), the raw offset of stream element k (R91). -/
def src (k : Nat) : Nat := Config.cols * (k % Config.rows) + 1 + k / Config.rows

/-- The stream element an offset carries, if any (R93: the sync column and the last three rows of column 79 carry
none). -/
def carried (off : Nat) : Option Nat :=
  let k := (off % Config.cols - 1) * Config.rows + off / Config.cols
  if off % Config.cols ≠ 0 ∧ k < Config.nsym then some k else none

/-- The frame that interleaves a stream, with `sync` at the offsets that carry nothing (R95). -/
def interleave (P : Params) (stream : Nat → Byte) (sync : Byte) : List Byte :=
  (List.range Config.frame).map fun off =>
    match carried off with
    | some k => invert P k (stream k)
    | none => sync

/-- One step of the encoder (R101): the two code symbols and the next state. -/
def encoderStep (P : Params) (S : Nat) (u : Bool) : (Bool × Bool) × Nat :=
  let R := (S <<< 1) ||| u.toNat
  ((codeSymbol P.polyA R, codeSymbol P.polyB R), R &&& 0x3F)

/-- The code symbols the encoder emits from a state, c0 and c1 of each step in order (R101). -/
def convEncode (P : Params) : (S : Nat) → (u : List Bool) → List Bool
  | _, [] => []
  | S, u :: us => (encoderStep P S u).1.1 :: (encoderStep P S u).1.2 :: convEncode P (encoderStep P S u).2 us

/-- enc(u): the 5132 code symbols of an input sequence, from state 0 (R111). -/
def enc (P : Params) (u : List Bool) : List Bool := convEncode P 0 u

/-- cost(u): the summed distance of the stream from enc(u) (R111). -/
def cost (P : Params) (conv : Nat → Byte) (u : List Bool) : Nat :=
  ((enc P u).mapIdx fun k c => softDist (conv k) c).sum

/-- The set U of R111: 2566 input bits of which the last six are 0. -/
def InputSequence (u : List Bool) : Prop :=
  u.length = Config.nstep ∧ ∀ t, Config.ninfo ≤ t → t < Config.nstep → u.getD t false = false

/-- The noise-free image of a code symbol (R111): 255 for a 1, 0 for a 0. -/
def softImage (c : Bool) : Byte := if c then 0xFF else 0x00

/-- Bytes as bits, bit 7 first (R109 and the forward encoder's step 3). -/
def serialise (bs : List Byte) : List Bool := bs.flatMap fun b => (List.range 8).map fun i => b.getLsbD (7 - i)

/-- The input sequence of a decoded block: its bits and the six tail zeros. -/
def withTail (bs : List Byte) : List Bool := serialise bs ++ List.replicate Config.ntail false

/-- The transmitter's scramble-and-merge of two codewords (R125). -/
def scrambleMerge (P : Params) (c0 c1 : List Byte) : List Byte :=
  (List.range Config.ndec).map fun i => (if i % 2 = 0 then c0 else c1).getD (i / 2) 0 ^^^ scrByte P i

/-- The generator polynomial g, constant term first: the product of (x - ROOT[i]) over the first `n` roots (R135). -/
def generator (P : Params) : (n : Nat) → List Byte
  | 0 => [1]
  | n + 1 =>
    let g := generator P n
    (List.range (n + 2)).map fun k =>
      gadd (if k = 0 then 0 else g.getD (k - 1) 0) (gmul P (root P n) (g.getD k 0))

/-- A codeword (R137): 160 symbols whose polynomial vanishes at the 32 roots. -/
def IsCodeword (P : Params) (c : List Byte) : Prop :=
  c.length = Config.rsn ∧ ∀ i, i < Config.nroots → evalWord P c (root P i) = 0

/-- dist(r, c) of R130: the number of positions in which two words differ. -/
def wordDistance (r c : List Byte) : Nat := ((r.zip c).filter fun p => p.1 != p.2).length

/-- The systematic encoder's register after the data symbols (R152). -/
def rsParity (P : Params) (data : List Byte) : List Byte :=
  let g := generator P Config.nroots
  data.foldl (fun rem d =>
    let f := d ^^^ rem.getD 0 0
    (List.range Config.nroots).map fun k => rem.getD (k + 1) 0 ^^^ gmul P f (g.getD (Config.nroots - 1 - k) 0))
    (List.replicate Config.nroots 0)

/-- The systematic encoder (R152). -/
def rsEncode (P : Params) (data : List Byte) : List Byte := data ++ rsParity P data

/-- The data part of payload half b (R160 read backwards; the forward encoder's step 1). -/
def payloadHalf (payload : List Byte) (b : Nat) : List Byte :=
  (List.range Config.rsk).map fun j => payload.getD (2 * j + b) 0

/-- The decoded block a payload is sent as (the forward encoder's steps 1 and 2). -/
def forwardBlock (P : Params) (payload : List Byte) : List Byte :=
  scrambleMerge P (rsEncode P (payloadHalf payload 0)) (rsEncode P (payloadHalf payload 1))

/-- The noise-free convolutional stream of a payload (the forward encoder's steps 3 and 4). -/
def forwardStream (P : Params) (payload : List Byte) : List Byte :=
  (enc P (withTail (forwardBlock P payload))).map softImage

/-- The raw frame of a payload (the forward encoder, 95_test_vectors.md section 3). -/
def forwardFrame (P : Params) (payload : List Byte) (sync : Byte) : List Byte :=
  let stream := forwardStream P payload
  interleave P (fun k => stream.getD k 0) sync

/-- The CRC of a byte sequence as a function (R174), for the record of either variant. -/
def crcOf {w : Nat} (c : CrcRecord w) (bs : List Byte) : BitVec w := crcFinal c (bs.foldl (crcAbsorb c) c.init)

/-- One of the eight iterations as R172 writes it, with the mask of the vacated top bit. -/
def crcMaskedShift {w : Nat} (poly r : BitVec w) : BitVec w :=
  (r <<< 1) ^^^ (poly &&& (if r.msb then BitVec.allOnes w else 0))

/-- One iteration of the least-significant-bit-first form (R177). -/
def crcReflectedShift {w : Nat} (c : CrcRecord w) (q : BitVec w) : BitVec w :=
  if q.getLsbD 0 then (q >>> 1) ^^^ rev c.poly else q >>> 1

/-- The least-significant-bit-first form of the CRC of a byte sequence (R177). -/
def crcReflected {w : Nat} (c : CrcRecord w) (bs : List Byte) : BitVec w :=
  bs.foldl (fun q b => (crcReflectedShift c)^[8] (q ^^^ b.setWidth w)) (rev c.init) ^^^ c.xorout

end Sys2Proof.Machine
end

