-- ==== Sys2Proof/Safety.lean ====
section
/-! DEFINITION. What a good state is, in the terms statements use: the invariant of the core between atomic steps, and
the good final state of 70_reset_and_hazards.md R216. -/

namespace Sys2Proof.Machine

/-- The six buffers keep their canonical form: every cell is an element of its space (R199; log 7). -/
abbrev State.buffersWf (s : State) : Prop :=
  Memory.wf Space.raw.len s.raw ∧ Memory.wf Space.conv.len s.conv ∧ Memory.wf Space.dec.len s.dec ∧
  Memory.wf Space.rs0.len s.rs0 ∧ Memory.wf Space.rs1.len s.rs1 ∧ Memory.wf Space.payload.len s.payload

/-- The invariant of every state between atomic steps: buffers canonical; STATUS legal, never BUSY (R31, R58, R188);
ERR elements in 0..16 or the sentinel (R30); CRCR[31:16] zero in 16-bit mode (R32); and the model's own counters keep
fresh draws fresh (log 5). -/
structure State.Inv (s : State) : Prop where
  buffers : s.buffersWf
  status  : Status.legal s.status = true
  err0    : errLegal s.err0 = true
  err1    : errLegal s.err1 = true
  crcHigh : s.crcmode = 0 → s.crcr.extractLsb' 16 16 = 0
  fresh   : s.epoch < s.draws

/-- The final state is good when FAULT = 0 and BUSY = 0 (R216). -/
abbrev State.good (s : State) : Prop := s.faulted = false ∧ s.busy = false

/-- What Issue leaves in STATUS when a command has completed (R81): DONE set, BUSY clear, the other fields as before. -/
structure Status.Completed (before after : BitVec 8) : Prop where
  done     : Status.done after = true
  busy     : Status.busy after = false
  fault    : Status.fault after = Status.fault before
  reserved : Status.reserved after = Status.reserved before
  cause    : Status.cause after = Status.cause before

/-- What `raise Fault(c)` leaves in STATUS when FAULT was 0 (R187). -/
structure Status.Faulted (c : Cause) (before after : BitVec 8) : Prop where
  fault    : Status.fault after = true
  cause    : Status.cause after = c.code
  done     : Status.done after = false
  busy     : Status.busy after = false
  reserved : Status.reserved after = Status.reserved before

/-- Every element of every space but those of `written` reads as before, and so does what the host has asked and been
told. -/
structure State.KeptBut (written : List Space) (s t : State) : Prop where
  elements : ∀ sp, sp ∉ written → ∀ i, t.element sp i = s.element sp i
  pending  : t.pending = s.pending
  replies  : t.replies = s.replies
  epoch    : t.epoch = s.epoch

/-- The three CRC registers are as before (R181). -/
structure State.CrcKept (s t : State) : Prop where
  crcr    : t.crcr = s.crcr
  crcmode : t.crcmode = s.crcmode
  crcout  : t.crcout = s.crcout

/-- A run of decoded commands, one after the other, as long as each answers a next state. -/
def execAll : List Instr → State → Host.Outcome State Fault Refusal
  | [], s => .next s
  | i :: is, s =>
    match exec i s with
    | .next t => execAll is t
    | .fault r => .fault r
    | .refused r => .refused r

/-- Whether a command is one of the CRC engine's; the others are the pipeline's (R181). -/
def isCrc : Instr → Bool
  | .crcinit _ | .crcbyte _ | .crcfin => true
  | .deint | .viterbi | .descr | .rsdec _ | .assemble | .decode => false

end Sys2Proof.Machine
end

