-- ==== Sys2Proof/Certificates/Slice0/Obligations.lean ====
section
/-! DEFINITION. The statements for the provers. Each docstring names the rule of spec/ it formalises, or says that it
rests on a choice of the model. -/

open Sys2Proof Sys2Proof.Machine

/-! ### Encoding and decoding -/

/-- R72, R80: a command's word decodes to that command, with every operand, and no other word decodes to it. -/
def Obligations.EncodeAndDecodeAgree : Prop :=
  (∀ i : Instr, decodeWord (encode i) = .ok i) ∧
  (∀ (w : CommandWord) (i : Instr), decodeWord w = .ok i → encode i = w)

/-- R80: the order of the checks, and that the legal words are those whose OP, RSV and ARG are well formed. -/
def Obligations.DecodeChecksInOrder : Prop :=
  ∀ w : CommandWord,
    (WellFormed.opcode w = false → decodeWord w = .error .illegalOpcode) ∧
    (WellFormed.opcode w = true → (WellFormed.reserved w && WellFormed.argument w) = false →
      decodeWord w = .error .reservedField) ∧
    (WellFormed.word w = true → ∃ i, decodeWord w = .ok i)

/-- R72, R74, R75 on the words of the spec's own table (95_test_vectors.md V-ENC-1). -/
def Obligations.SpecWordsDecode : Prop :=
  decodeWord 0x1000 = .ok .deint ∧ decodeWord 0x2000 = .ok .viterbi ∧ decodeWord 0x3000 = .ok .descr ∧
  decodeWord 0x4000 = .ok (.rsdec 0) ∧ decodeWord 0x4001 = .ok (.rsdec 1) ∧ decodeWord 0x5000 = .ok .assemble ∧
  decodeWord 0x6000 = .ok .decode ∧ decodeWord 0x8000 = .ok (.crcinit 0) ∧ decodeWord 0x8001 = .ok (.crcinit 1) ∧
  decodeWord 0x90FF = .ok (.crcbyte 0xFF) ∧ decodeWord 0xA000 = .ok .crcfin ∧
  decodeWord 0x7F00 = .error .illegalOpcode ∧ decodeWord 0x4002 = .error .reservedField ∧
  decodeWord 0x9100 = .error .reservedField

/-! ### The step -/

/-- R81, R58: the host's oldest action being the issue of a legal word, one step is the command's `exec` on the state
whose queue has moved on (log 1, the model's own queue); with no action pending the core idles (log 1). -/
def Obligations.StepRunsDecodedCommand : Prop :=
  (∀ (s : State) (w : CommandWord) (rest : List HostAction) (i : Instr),
    s.pending = .issue w :: rest → s.busy = false → decodeWord w = .ok i →
      step s = exec i { s with pending := rest }) ∧
  (∀ (s : State) (i : Instr), s.busy = false → step (s.withFetchWord 16 (encode i).toNat) = exec i s) ∧
  (∀ s : State, s.pending = [] → step s = .next s)

/-- R55, R56, R57, R205 through the step: any other oldest action is performed on the state whose queue has moved on;
RegRead and the reset event also while BUSY = 1. -/
def Obligations.StepPerformsHostActions : Prop :=
  ∀ (s : State) (a : HostAction) (rest : List HostAction), s.pending = a :: rest →
    (s.busy = false → step s = perform a { s with pending := rest }) ∧
    (∀ name, a = .regRead name → step s = .next (regRead name { s with pending := rest })) ∧
    (a = .reset → step s = .next (resetEvent { s with pending := rest }))

/-- R188 cause 4, R210, D30 (log 10, the model's form of BUSY_POLICY): a command or a buffer access made while BUSY = 1
is either held off, with nothing changed, or raises BUSY_ACCESS, and then no element and no CRC register changes. -/
def Obligations.BusyAccessIsHeldOffOrFaults : Prop :=
  ∀ (s : State) (a : HostAction) (rest : List HostAction),
    s.pending = a :: rest → s.busy = true → s.faulted = false → needsIdle a = true →
      step s = .next s ∨
      ∃ t, step s = .next t ∧ Status.Faulted .busyAccess s.status t.status ∧ s.CrcKept t ∧
        t.pending = rest ∧ ∀ sp i, t.element sp i = s.element sp i

/-! ### Reset and the invariant -/

/-- R42, R205: what the reset event leaves in the registers, from any state, and that every element of the six buffers
is then one unspecified byte, of a draw that nothing before used (the form of `any` is log 4 and log 5). -/
def Obligations.ResetEventGivesResetValues : Prop :=
  ∀ s : State, ∃ t, perform .reset s = .next t ∧
    t.status = 0x00 ∧ t.err0 = 0xFF ∧ t.err1 = 0xFF ∧ t.crcr = 0 ∧ t.crcmode = 0 ∧ t.crcout = 0 ∧
    t.pending = s.pending ∧ t.replies = s.replies ∧
    ∀ sp, sp ≠ .err → ∀ i, t.element sp i = Config.freeByte s.draws sp.id i

/-- R42: the machine right after reset has the register values of the table, and it satisfies the invariant and is
good (R216). -/
def Obligations.ResetSatisfiesInvariant : Prop :=
  State.reset.status = 0x00 ∧ State.reset.err0 = 0xFF ∧ State.reset.err1 = 0xFF ∧ State.reset.crcr = 0 ∧
  State.reset.crcmode = 0 ∧ State.reset.crcout = 0 ∧ State.reset.Inv ∧ State.reset.good

/-- R31, R30, R32, R188, R199 over every step: buffers stay canonical, STATUS stays legal with BUSY = 0, ERR stays 0..16
or the sentinel, CRCR[31:16] stays zero in 16-bit mode; and no step faults or is refused (R195). -/
def Obligations.EveryStepKeepsInvariant : Prop :=
  ∀ s : State, s.Inv → ∃ t, step s = .next t ∧ t.Inv

/-! ### The host port and the fault state -/

/-- R55: a read in range returns the element and changes nothing; any other read raises BAD_ACCESS, moves no data and
returns some value (`any`, log 11). -/
def Obligations.MemReadReturnsElement : Prop :=
  ∀ s : State,
    (∀ (sp : Space) (i : Nat), i < sp.len →
      perform (.memRead sp.id i) s = .next { s with replies := .element (s.element sp i) :: s.replies }) ∧
    (∀ space i, WellFormed.readAccess space i = false → s.faulted = false →
      ∃ (v : Byte) (n : Nat) (st : BitVec 8),
        perform (.memRead space i) s =
          .next { s with status := st, replies := .element v :: s.replies, draws := n } ∧
        Status.Faulted .badAccess s.status st)

/-- R56: ignored while FAULT = 1; BAD_ACCESS and no element changed when the space does not exist, the index is out of
range or the space is PAYLOAD or ERR; otherwise element i becomes v and nothing else changes, STATUS included. -/
def Obligations.MemWriteWritesOneElement : Prop :=
  ∀ (s : State) (v : Byte),
    (∀ space i, s.faulted = true → perform (.memWrite space i v) s = .next s) ∧
    (∀ space i, s.faulted = false → WellFormed.writeAccess space i = false →
      ∃ st, perform (.memWrite space i v) s = .next { s with status := st } ∧
        Status.Faulted .badAccess s.status st) ∧
    (∀ (sp : Space) (i : Nat), s.faulted = false → i < sp.len → sp.hostWritable = true →
      ∃ t, perform (.memWrite sp.id i v) s = .next t ∧ t.element sp i = v ∧
        (∀ sp' j, ¬(sp' = sp ∧ j = i) → t.element sp' j = s.element sp' j) ∧
        t.status = s.status ∧ s.CrcKept t ∧ t.draws = s.draws ∧ t.epoch = s.epoch ∧
        t.pending = s.pending ∧ t.replies = s.replies)

/-- R57: RegRead returns the whole register in every state and has no side effect. -/
def Obligations.RegReadReturnsRegister : Prop :=
  ∀ s : State,
    perform (.regRead .status) s = .next { s with replies := .status s.status :: s.replies } ∧
    perform (.regRead .crcr) s = .next { s with replies := .crcr s.crcr :: s.replies } ∧
    perform (.regRead .crcmode) s = .next { s with replies := .crcmode s.crcmode :: s.replies } ∧
    perform (.regRead .crcout) s = .next { s with replies := .crcout s.crcout :: s.replies }

/-- R187: the fault primitive: FAULT is set and the first cause kept, DONE and BUSY are cleared, and nothing else of
the state changes. -/
def Obligations.RaiseFaultKeepsFirstCause : Prop :=
  ∀ (c : Cause) (s : State), ∃ st, raiseFault c s = { s with status := st } ∧
    Status.fault st = true ∧ Status.done st = false ∧ Status.busy st = false ∧
    Status.reserved st = Status.reserved s.status ∧
    (s.faulted = false → Status.cause st = c.code) ∧
    (s.faulted = true → Status.cause st = Status.cause s.status)

/-- R74: issuing a word with one of the seven reserved OP values raises ILLEGAL_OPCODE; nothing but STATUS changes. -/
def Obligations.ReservedOpcodeFaults : Prop :=
  ∀ (s : State) (w : CommandWord), s.faulted = false →
    (opField w).toNat ∈ [0x0, 0x7, 0xB, 0xC, 0xD, 0xE, 0xF] →
      ∃ st, perform (.issue w) s = .next { s with status := st } ∧ Status.Faulted .illegalOpcode s.status st

/-- R75: a word with a legal OP but RSV not zero, or a non-zero bit in an ARG position that must be zero (R73), raises
RESERVED_FIELD; nothing but STATUS changes. -/
def Obligations.ReservedFieldFaults : Prop :=
  ∀ (s : State) (w : CommandWord), s.faulted = false →
    (opField w).toNat ∉ [0x0, 0x7, 0xB, 0xC, 0xD, 0xE, 0xF] →
    (rsvField w ≠ 0 ∨
      ((opField w).toNat ∈ [0x1, 0x2, 0x3, 0x5, 0x6, 0xA] ∧ argField w ≠ 0) ∨
      ((opField w).toNat ∈ [0x4, 0x8] ∧ (argField w).extractLsb' 1 7 ≠ 0)) →
      ∃ st, perform (.issue w) s = .next { s with status := st } ∧ Status.Faulted .reservedField s.status st

/-- R194: while FAULT = 1, Issue of every word and every MemWrite change nothing, MemRead and RegRead return what the
state holds, and an out-of-range MemRead returns some value and changes nothing (but the model's draw counter). -/
def Obligations.FaultedCoreIsInert : Prop :=
  ∀ s : State, s.faulted = true →
    (∀ i, exec i s = .next s) ∧
    (∀ w, perform (.issue w) s = .next s) ∧
    (∀ space i v, perform (.memWrite space i v) s = .next s) ∧
    (∀ (sp : Space) (i : Nat), i < sp.len →
      perform (.memRead sp.id i) s = .next { s with replies := .element (s.element sp i) :: s.replies }) ∧
    (∀ space i, WellFormed.readAccess space i = false →
      ∃ (v : Byte) (n : Nat),
        perform (.memRead space i) s = .next { s with replies := .element v :: s.replies, draws := n }) ∧
    perform (.regRead .status) s = .next { s with replies := .status s.status :: s.replies } ∧
    perform (.regRead .crcr) s = .next { s with replies := .crcr s.crcr :: s.replies } ∧
    perform (.regRead .crcmode) s = .next { s with replies := .crcmode s.crcmode :: s.replies } ∧
    perform (.regRead .crcout) s = .next { s with replies := .crcout s.crcout :: s.replies }

/-- R193: from a state with FAULT = 1 every step but the reset event keeps FAULT and CAUSE. -/
def Obligations.OnlyResetLeavesTheFaultState : Prop :=
  ∀ (s t : State), s.faulted = true → s.pending.head? ≠ some .reset → step s = .next t →
    t.faulted = true ∧ Status.cause t.status = Status.cause s.status

/-- R81, R189: a decoded command never faults during execution: with FAULT = 0 every command completes, DONE set, BUSY
clear, FAULT still 0 and CAUSE as it was. -/
def Obligations.DecodedCommandsComplete : Prop :=
  ∀ (i : Instr) (s : State), s.faulted = false →
    ∃ t, exec i s = .next t ∧ t.faulted = false ∧ Status.Completed s.status t.status

/-- R25, R24: no command writes RAW; and no host write changes PAYLOAD or ERR. -/
def Obligations.RawAndOutputsAreProtected : Prop :=
  (∀ (i : Instr) (s t : State), exec i s = .next t → ∀ k, t.element .raw k = s.element .raw k) ∧
  (∀ (s t : State) (space i : Nat) (v : Byte), perform (.memWrite space i v) s = .next t →
    (∀ k, t.element .payload k = s.element .payload k) ∧ ∀ k, t.element .err k = s.element .err k)

/-! ### DEINT -/

/-- R91: the walk of R90 has the closed form CONV[k] = inv_k(RAW[src(k)]), src(k) = 80 (k mod 65) + 1 + k div 65, with
inv_k the identity for even k and 255 - s for odd k (R92; the parity is a default of R7, log 8); nothing else changes
but STATUS. -/
def Obligations.DeintFollowsClosedForm : Prop :=
  ∀ s : State, s.faulted = false →
    ∃ t, exec .deint s = .next t ∧
      (∀ k, k < 5132 → t.element .conv k =
        (if k % 2 = 1 then 255 - s.element .raw (80 * (k % 65) + 1 + k / 65)
         else s.element .raw (80 * (k % 65) + 1 + k / 65))) ∧
      s.KeptBut [.conv] t ∧ s.CrcKept t ∧ t.draws = s.draws ∧ Status.Completed s.status t.status

/-- R93: two frames that agree on every offset but the sync column and 5039, 5119, 5199 deinterleave to the same
stream. -/
def Obligations.DeintIgnoresUnreadOffsets : Prop :=
  ∀ s₁ s₂ : State, s₁.faulted = false → s₂.faulted = false →
    (∀ off, off < 5200 → off % 80 ≠ 0 → off ∉ [5039, 5119, 5199] → s₁.element .raw off = s₂.element .raw off) →
    ∃ t₁ t₂, exec .deint s₁ = .next t₁ ∧ exec .deint s₂ = .next t₂ ∧
      ∀ k, k < 5132 → t₁.element .conv k = t₂.element .conv k

/-- R95: a frame that holds the interleaved, inverted image of a stream, with any bytes at the offsets that carry
nothing, deinterleaves to exactly that stream; and src is injective on 0..5131. -/
def Obligations.DeinterleaveInvertsInterleave : Prop :=
  (∀ (s : State) (stream : Nat → Byte), s.faulted = false →
    (∀ k, k < 5132 → s.element .raw (src k) = if k % 2 = 1 then 255 - stream k else stream k) →
    ∃ t, exec .deint s = .next t ∧ ∀ k, k < 5132 → t.element .conv k = stream k) ∧
  (∀ k₁ k₂, k₁ < 5132 → k₂ < 5132 → src k₁ = src k₂ → k₁ = k₂)

/-! ### VITERBI -/

/-- R111: the bits VITERBI recovers are an input sequence of U of minimum cost, the final metric of state 0 is that
minimum, a stream that is the noise-free image of a sequence of U gives back exactly that sequence, and DEC packs the
bits most significant first (R109); nothing else changes but STATUS. -/
def Obligations.ViterbiReturnsMinimumCostSequence : Prop :=
  ∀ s : State, s.faulted = false →
    ∃ t u, exec .viterbi s = .next t ∧ u = viterbiBits params (s.element .conv) ∧ InputSequence u ∧
      (∀ v, InputSequence v → cost params (s.element .conv) u ≤ cost params (s.element .conv) v) ∧
      (acsRun params (softPairs (s.element .conv)) initialMetrics []).1.getD 0 0 =
        cost params (s.element .conv) u ∧
      (∀ v, InputSequence v →
        (∀ k, k < 5132 → s.element .conv k = softImage ((enc params v).getD k false)) → u = v) ∧
      (∀ j, j < 320 → ∀ i, i < 8 → (t.element .dec j).getLsbD (7 - i) = u.getD (8 * j + i) false) ∧
      s.KeptBut [.dec] t ∧ s.CrcKept t ∧ t.draws = s.draws ∧ Status.Completed s.status t.status

/-- R111 and R109 on bytes: the noise-free image of a 320-byte block, its bits and six tail zeros encoded from state 0,
decodes to that block. -/
def Obligations.ViterbiDecodesNoiseFreeBlock : Prop :=
  ∀ (s : State) (block : List Byte), s.faulted = false → block.length = 320 →
    (∀ k, k < 5132 → s.element .conv k = softImage ((enc params (withTail block)).getD k false)) →
    ∃ t, exec .viterbi s = .next t ∧ ∀ j, j < 320 → t.element .dec j = block.getD j 0

/-- R107: no path metric reaches 2^25, after any number of the trellis steps, whatever the soft bits. -/
def Obligations.PathMetricsStayBelowBound : Prop :=
  ∀ xs : List (Byte × Byte), xs.length ≤ 2566 →
    ∀ m ∈ (acsRun params xs initialMetrics []).1, m < 2 ^ 25

/-- R113, R114: with the tap masks 0x4F and 0x6D, the two code symbols a branch expects at register value R are both
complemented at R ^ 1 and at R ^ 64. -/
def Obligations.BranchSymbolsAreComplemented : Prop :=
  ∀ r, r < 128 →
    codeSymbol params.polyA (r ^^^ 1) = !codeSymbol params.polyA r ∧
    codeSymbol params.polyB (r ^^^ 1) = !codeSymbol params.polyB r ∧
    codeSymbol params.polyA (r ^^^ 64) = !codeSymbol params.polyA r ∧
    codeSymbol params.polyB (r ^^^ 64) = !codeSymbol params.polyB r

/-! ### DESCR -/

/-- R124: RS[b][j] = DEC[2j + b] ^ SCR[(2j + b) mod 255]; nothing else changes but STATUS (ERR stays stale, R126). -/
def Obligations.DescrSplitsByParity : Prop :=
  ∀ s : State, s.faulted = false →
    ∃ t, exec .descr s = .next t ∧
      (∀ j, j < 160 →
        t.element .rs0 j = s.element .dec (2 * j) ^^^ params.scr.getD ((2 * j) % 255) 0 ∧
        t.element .rs1 j = s.element .dec (2 * j + 1) ^^^ params.scr.getD ((2 * j + 1) % 255) 0) ∧
      s.KeptBut [.rs0, .rs1] t ∧ s.CrcKept t ∧ t.draws = s.draws ∧ Status.Completed s.status t.status

/-- R125: DESCR undoes the transmitter's scramble-and-merge of any two 160-symbol words. -/
def Obligations.DescrInvertsScrambleMerge : Prop :=
  ∀ (s : State) (c0 c1 : List Byte), s.faulted = false → c0.length = 160 → c1.length = 160 →
    (∀ i, i < 320 → s.element .dec i = (scrambleMerge params c0 c1).getD i 0) →
    ∃ t, exec .descr s = .next t ∧ t.block 0 = c0 ∧ t.block 1 = c1

/-- R122: the table of R121 is the output of the shift register of h(x) = x^8 + x^7 + x^5 + x^3 + 1 from all ones,
eight bits a byte, first bit most significant; and 510 bytes of that output are the table twice (period 255). -/
def Obligations.ScramblerTableIsLfsrOutput : Prop :=
  packBits 255 (lfsrBits 2040 0xFF) = params.scr ∧ packBits 510 (lfsrBits 4080 0xFF) = params.scr ++ params.scr

/-! ### RSDEC -/

/-- R132: gmul is commutative and associative, distributes over gadd, has 0 and 1, and is the log-antilog product. -/
def Obligations.FieldMultiplicationLaws : Prop :=
  ∀ a b c : Byte,
    gmul params a b = gmul params b a ∧
    gmul params (gmul params a b) c = gmul params a (gmul params b c) ∧
    gmul params a (gadd b c) = gadd (gmul params a b) (gmul params a c) ∧
    gmul params a 0 = 0 ∧ gmul params a 1 = a ∧
    (a ≠ 0 → b ≠ 0 → gmul params a b = gexp params ((glog params a + glog params b) % 255))

/-- R133, R134: EXP[0..254] takes every non-zero byte exactly once, LOG inverts it, ginv is the inverse, and beta is
primitive. -/
def Obligations.AntilogTableEnumeratesField : Prop :=
  (∀ a : Byte, a ≠ 0 → glog params a < 255 ∧ gexp params (glog params a) = a ∧ gmul params a (ginv params a) = 1) ∧
  (∀ i, i < 255 → gexp params i ≠ 0 ∧ glog params (gexp params i) = i) ∧
  (∀ i j, i < 255 → j < 255 → bpow params i = bpow params j → i = j)

/-- R137: 32 consecutive powers of beta as roots: two distinct codewords differ in at least 33 positions. -/
def Obligations.CodewordsDifferInThirtyThreePositions : Prop :=
  ∀ c₁ c₂ : List Byte, IsCodeword params c₁ → IsCodeword params c₂ → c₁ ≠ c₂ → 33 ≤ wordDistance c₁ c₂

/-- R137, R152: the code is systematic: the encoder's word is a codeword, and the only one with those data symbols. -/
def Obligations.EncoderGivesTheCodewordOfItsData : Prop :=
  ∀ data : List Byte, data.length = 128 →
    IsCodeword params (rsEncode params data) ∧
    ∀ c, IsCodeword params c → c.take 128 = data → c = rsEncode params data

/-- R139: if all syndromes are zero, RS[b] is left unchanged and ERR[b] becomes 0; nothing else changes but STATUS. -/
def Obligations.RsdecKeepsErrorFreeBlock : Prop :=
  ∀ (s : State) (b : BitVec 1), s.faulted = false →
    (∀ i, i < 32 → evalWord params (s.block b) (root params i) = 0) →
    ∃ t, exec (.rsdec b) s = .next t ∧ t.block b = s.block b ∧ t.errOf b = 0 ∧ t.errOf (~~~b) = s.errOf (~~~b) ∧
      s.KeptBut [blockSpace b, .err] t ∧ s.CrcKept t ∧ t.draws = s.draws ∧ Status.Completed s.status t.status

/-- R140: the Berlekamp-Massey unit's recurrence generates the syndromes: LAM[0] = 1, LEN is at most 32, and every
SYN[n] with n from LEN to 31 is the sum the recurrence gives. -/
def Obligations.BerlekampMasseyGeneratesSyndromes : Prop :=
  ∀ syn : List Byte, syn.length = 32 →
    let bm := berlekampMassey params syn
    bm.lam.length = 33 ∧ bm.lam.getD 0 0 = 1 ∧ bm.len ≤ 32 ∧
    ∀ n, bm.len ≤ n → n < 32 → discrepancy params syn bm.lam bm.len n = 0

/-- R148 (1): if RSDEC b does not report the sentinel, the block it leaves is a codeword that differs from the
received word in exactly ERR[b] positions, at most 16. -/
def Obligations.RsdecSuccessIsACodeword : Prop :=
  ∀ (s : State) (b : BitVec 1), s.faulted = false →
    ∃ t, exec (.rsdec b) s = .next t ∧
      (t.errOf b ≠ 0xFF → IsCodeword params (t.block b) ∧ (t.errOf b).toNat ≤ 16 ∧
        wordDistance (s.block b) (t.block b) = (t.errOf b).toNat)

/-- R130: with r the content of RS[b] before: if there is a codeword within 16 of r, RS[b] becomes that codeword and
ERR[b] the distance; if there is none, ERR[b] becomes RS_SENTINEL; in both cases nothing else
changes: not the other block, not its count, not PAYLOAD. -/
def Obligations.RsdecMeetsContract : Prop :=
  ∀ (s : State) (b : BitVec 1), s.faulted = false →
    ∃ t, exec (.rsdec b) s = .next t ∧
      ((∃ c, IsCodeword params c ∧ wordDistance (s.block b) c ≤ 16 ∧ t.block b = c ∧
          t.errOf b = BitVec.ofNat 8 (wordDistance (s.block b) c)) ∨
       ((∀ c, IsCodeword params c → 16 < wordDistance (s.block b) c) ∧ t.errOf b = params.rsSentinel)) ∧
      t.errOf (~~~b) = s.errOf (~~~b) ∧
      s.KeptBut [blockSpace b, .err] t ∧ s.CrcKept t ∧ Status.Completed s.status t.status

/-- R151, R44: what RSDEC b does depends on RS[b] alone: two states with the same RS[b] get the same ERR[b] and, unless
it is the sentinel (R147: then the block is `any`), the same block. -/
def Obligations.RsdecDependsOnItsBlockAlone : Prop :=
  ∀ (s₁ s₂ : State) (b : BitVec 1), s₁.faulted = false → s₂.faulted = false → s₁.block b = s₂.block b →
    ∃ t₁ t₂, exec (.rsdec b) s₁ = .next t₁ ∧ exec (.rsdec b) s₂ = .next t₂ ∧ t₁.errOf b = t₂.errOf b ∧
      (t₁.errOf b ≠ 0xFF → t₁.block b = t₂.block b)

/-! ### ASSEMBLE and DECODE -/

/-- R160: PAYLOAD[i] = RS[i mod 2][i div 2] for i = 0..255; nothing else changes but STATUS. -/
def Obligations.AssembleInterleavesDataParts : Prop :=
  ∀ s : State, s.faulted = false →
    ∃ t, exec .assemble s = .next t ∧
      (∀ i, i < 256 → t.element .payload i =
        if i % 2 = 0 then s.element .rs0 (i / 2) else s.element .rs1 (i / 2)) ∧
      s.KeptBut [.payload] t ∧ s.CrcKept t ∧ t.draws = s.draws ∧ Status.Completed s.status t.status

/-- R161: DECODE has exactly the effect of the six commands in their order: both reach the same state. For the bytes of
an uncorrectable block, which R147 leaves unspecified (`any`), and its half of PAYLOAD, the equality is the model's own:
it holds because both runs take the same draw numbers (log 5, log 6), and it is no claim about the hardware. -/
def Obligations.DecodeIsTheSixCommands : Prop :=
  ∀ s : State, s.faulted = false →
    ∃ t, exec .decode s = .next t ∧
      execAll [.deint, .viterbi, .descr, .rsdec 0, .rsdec 1, .assemble] s = .next t ∧
      s.KeptBut [.conv, .dec, .rs0, .rs1, .payload, .err] t ∧ s.CrcKept t ∧ Status.Completed s.status t.status

/-- R165 (a), R14, R208: DECODE's results are a function of RAW alone, whatever the other buffers, ERR and the CRC
registers held, except the elements declared `any`: two states with the same RAW get the same CONV, DEC and ERR, and for
each block without the sentinel the same block and the same half of PAYLOAD. -/
def Obligations.DecodeDependsOnRawAlone : Prop :=
  ∀ s₁ s₂ : State, s₁.faulted = false → s₂.faulted = false →
    (∀ off, off < 5200 → s₁.element .raw off = s₂.element .raw off) →
    ∃ t₁ t₂, exec .decode s₁ = .next t₁ ∧ exec .decode s₂ = .next t₂ ∧
      t₁.bytes .conv = t₂.bytes .conv ∧ t₁.bytes .dec = t₂.bytes .dec ∧
      ∀ b : BitVec 1, t₁.errOf b = t₂.errOf b ∧
        (t₁.errOf b ≠ 0xFF → t₁.block b = t₂.block b ∧
          ∀ j, j < 128 → t₁.element .payload (2 * j + b.toNat) = t₂.element .payload (2 * j + b.toNat))

/-- R164, R216: after DECODE, element i of PAYLOAD is element i div 2 of block i mod 2 as that block then stands,
whatever the verdict on it. -/
def Obligations.DecodedPayloadIsTheBlocksDataParts : Prop :=
  ∀ s : State, s.faulted = false →
    ∃ t, exec .decode s = .next t ∧
      ∀ i, i < 256 → t.element .payload i =
        if i % 2 = 0 then t.element .rs0 (i / 2) else t.element .rs1 (i / 2)

/-- R165 (b): DECODE inverts the forward encoder: on the noise-free frame of any 256-byte payload it gives that payload
and the counts 0, 0. -/
def Obligations.DecodeInvertsForwardEncoder : Prop :=
  ∀ (s : State) (payload : List Byte) (sync : Byte), s.faulted = false → payload.length = 256 →
    (∀ off, off < 5200 → s.element .raw off = (forwardFrame params payload sync).getD off 0) →
    ∃ t, exec .decode s = .next t ∧ t.bytes .payload = payload ∧ t.err0 = 0 ∧ t.err1 = 0

/-! ### The CRC engine -/

/-- R171: CRCINIT m sets CRCMODE to m and CRCR to the record's initial value (R179, R180: defaults of R7, log 8);
CRCOUT and everything else stay, but STATUS. -/
def Obligations.CrcinitStartsTheVariant : Prop :=
  ∀ (s : State) (m : BitVec 1), s.faulted = false →
    ∃ st, exec (.crcinit m) s =
        .next { s with crcmode := m, crcr := if m = 0 then 0x00000000 else 0xFFFFFFFF, status := st } ∧
      Status.Completed s.status st

/-- R172: CRCBYTE imm8 xors the bit-reversed byte into the high-order byte of the W-bit register and shifts eight
times, applying the polynomial through the mask of the vacated top bit; CRCMODE selects W and the polynomial (R179, R180:
defaults of R7, log 8); nothing else changes but STATUS. -/
def Obligations.CrcbyteAbsorbsOneByte : Prop :=
  ∀ (s : State) (imm8 : BitVec 8), s.faulted = false →
    ∃ st, exec (.crcbyte imm8) s =
        .next { s with
          crcr :=
            if s.crcmode = 0 then
              ((crcMaskedShift 0x8005#16)^[8] (s.crcr.setWidth 16 ^^^ (imm8.reverse.setWidth 16 <<< 8))).setWidth 32
            else (crcMaskedShift 0x04C11DB7#32)^[8] (s.crcr ^^^ (imm8.reverse.setWidth 32 <<< 24))
          status := st } ∧
      Status.Completed s.status st

/-- R173: CRCFIN reverses the W-bit register, applies the output mask (R179, R180: defaults of R7, log 8), zero-extends
into CRCOUT and leaves CRCR and CRCMODE as they are; nothing else changes but STATUS. -/
def Obligations.CrcfinFinalisesIntoCrcout : Prop :=
  ∀ s : State, s.faulted = false →
    ∃ st, exec .crcfin s =
        .next { s with
          crcout := if s.crcmode = 0 then (s.crcr.setWidth 16).reverse.setWidth 32
                    else s.crcr.reverse ^^^ 0xFFFFFFFF
          status := st } ∧
      Status.Completed s.status st

/-- R174: CRCINIT m, one CRCBYTE per byte in order, CRCFIN leave in CRCOUT the CRC of the byte sequence alone, whatever
the state was before. -/
def Obligations.CrcCommandsComputeTheCrcFunction : Prop :=
  ∀ (s : State) (m : BitVec 1) (bs : List Byte), s.faulted = false →
    ∃ t, execAll (.crcinit m :: bs.map .crcbyte ++ [.crcfin]) s = .next t ∧
      t.crcout = if m = 0 then (crcOf params.crc16 bs).setWidth 32 else crcOf params.crc32 bs

/-- R175: with no byte absorbed both variants give 0. -/
def Obligations.EmptyMessageHasCrcZero : Prop :=
  ∀ (s : State) (m : BitVec 1), s.faulted = false →
    ∃ t, execAll [.crcinit m, .crcfin] s = .next t ∧ t.crcout = 0

/-- R176: the check values of the nine ASCII bytes "123456789". -/
def Obligations.CrcCheckValues : Prop :=
  crcOf params.crc16 [0x31, 0x32, 0x33, 0x34, 0x35, 0x36, 0x37, 0x38, 0x39] = 0xBB3D ∧
  crcOf params.crc32 [0x31, 0x32, 0x33, 0x34, 0x35, 0x36, 0x37, 0x38, 0x39] = 0xCBF43926

/-- R177: the engine equals the least-significant-bit-first form, with the reversed polynomials 0xA001 and
0xEDB88320. -/
def Obligations.CrcEqualsReflectedForm : Prop :=
  rev params.crc16.poly = 0xA001 ∧ rev params.crc32.poly = 0xEDB88320 ∧
  ∀ bs : List Byte,
    crcOf params.crc16 bs = crcReflected params.crc16 bs ∧ crcOf params.crc32 bs = crcReflected params.crc32 bs

/-- R181: CRC commands change only the three CRC registers and STATUS; pipeline commands never touch those three; and
a CRC command and a pipeline command may be issued in either order with the same final state. For the bytes of a block
that RSDEC or DECODE finds uncorrectable, which R147 leaves unspecified (`any`), that equality is the model's own: it
holds because both orders take the same draw numbers (log 5, log 6), and it is no claim about the hardware. -/
def Obligations.CrcAndPipelineAreIndependent : Prop :=
  (∀ (i : Instr) (s t : State), isCrc i = true → exec i s = .next t → s.KeptBut [] t ∧ t.draws = s.draws) ∧
  (∀ (i : Instr) (s t : State), isCrc i = false → exec i s = .next t → s.CrcKept t) ∧
  (∀ (c p : Instr) (s : State), isCrc c = true → isCrc p = false → execAll [c, p] s = execAll [p, c] s)
end

