-- ==== Sys2Proof/Laws/Flags.lean ====
section
/-! SUPPORT. Every field of STATUS after every update of STATUS, and what the updates keep legal. -/

namespace Sys2Proof.Machine.Status

@[simp] theorem busy_setBusy (b : Bool) (st : BitVec 8) : busy (setBusy b st) = b := by revert b st; decide
@[simp] theorem done_setBusy (b : Bool) (st : BitVec 8) : done (setBusy b st) = done st := by revert b st; decide
@[simp] theorem fault_setBusy (b : Bool) (st : BitVec 8) : fault (setBusy b st) = fault st := by revert b st; decide
@[simp] theorem reserved_setBusy (b : Bool) (st : BitVec 8) : reserved (setBusy b st) = reserved st := by revert b st; decide
@[simp] theorem cause_setBusy (b : Bool) (st : BitVec 8) : cause (setBusy b st) = cause st := by revert b st; decide

@[simp] theorem busy_setDone (b : Bool) (st : BitVec 8) : busy (setDone b st) = busy st := by revert b st; decide
@[simp] theorem done_setDone (b : Bool) (st : BitVec 8) : done (setDone b st) = b := by revert b st; decide
@[simp] theorem fault_setDone (b : Bool) (st : BitVec 8) : fault (setDone b st) = fault st := by revert b st; decide
@[simp] theorem reserved_setDone (b : Bool) (st : BitVec 8) : reserved (setDone b st) = reserved st := by revert b st; decide
@[simp] theorem cause_setDone (b : Bool) (st : BitVec 8) : cause (setDone b st) = cause st := by revert b st; decide

@[simp] theorem busy_setFault (st : BitVec 8) : busy (setFault st) = busy st := by revert st; decide
@[simp] theorem done_setFault (st : BitVec 8) : done (setFault st) = done st := by revert st; decide
@[simp] theorem fault_setFault (st : BitVec 8) : fault (setFault st) = true := by revert st; decide
@[simp] theorem reserved_setFault (st : BitVec 8) : reserved (setFault st) = reserved st := by revert st; decide
@[simp] theorem cause_setFault (st : BitVec 8) : cause (setFault st) = cause st := by revert st; decide

@[simp] theorem busy_setCause (c : BitVec 4) (st : BitVec 8) : busy (setCause c st) = busy st := by revert c st; decide
@[simp] theorem done_setCause (c : BitVec 4) (st : BitVec 8) : done (setCause c st) = done st := by revert c st; decide
@[simp] theorem fault_setCause (c : BitVec 4) (st : BitVec 8) : fault (setCause c st) = fault st := by revert c st; decide
@[simp] theorem reserved_setCause (c : BitVec 4) (st : BitVec 8) : reserved (setCause c st) = reserved st := by revert c st; decide
@[simp] theorem cause_setCause (c : BitVec 4) (st : BitVec 8) : cause (setCause c st) = c := by revert c st; decide

/-- The lines of Issue after a command leave a legal STATUS with FAULT = 0 legal (R81). -/
theorem legal_complete : ∀ st : BitVec 8, legal st = true → fault st = false →
    legal (setDone true (setBusy false (setBusy true (setDone false st)))) = true := by decide

/-- A raised fault leaves a legal STATUS (R187), whatever the cause of the four. -/
theorem legal_raise : ∀ (c : Cause), c ≠ .none → ∀ st : BitVec 8, legal st = true → fault st = false →
    legal (setBusy false (setDone false (setCause c.code (setFault st)))) = true := by
  intro c hc
  cases c
  · exact absurd rfl hc
  all_goals decide

/-- Clearing DONE keeps STATUS legal. -/
theorem legal_clearDone : ∀ st : BitVec 8, legal st = true → legal (setDone false st) = true := by decide

/-- In a legal STATUS, BUSY is 0 (R58). -/
theorem busy_of_legal : ∀ st : BitVec 8, legal st = true → busy st = false := by decide

end Sys2Proof.Machine.Status
end

