-- ==== Sys2Proof/Laws/State.lean ====
section
/-! SUPPORT. One lemma per field per update, all by `rfl`, so that no later proof unfolds a record update. -/

namespace Sys2Proof.Machine

/-! ### setConv -/

@[simp] theorem State.setConv_raw (s : State) (bs : List Byte) : (s.setConv bs).raw = s.raw := rfl
@[simp] theorem State.setConv_conv (s : State) (bs : List Byte) : (s.setConv bs).conv = Memory.ofBytes bs := rfl
@[simp] theorem State.setConv_dec (s : State) (bs : List Byte) : (s.setConv bs).dec = s.dec := rfl
@[simp] theorem State.setConv_rs0 (s : State) (bs : List Byte) : (s.setConv bs).rs0 = s.rs0 := rfl
@[simp] theorem State.setConv_rs1 (s : State) (bs : List Byte) : (s.setConv bs).rs1 = s.rs1 := rfl
@[simp] theorem State.setConv_payload (s : State) (bs : List Byte) : (s.setConv bs).payload = s.payload := rfl
@[simp] theorem State.setConv_err0 (s : State) (bs : List Byte) : (s.setConv bs).err0 = s.err0 := rfl
@[simp] theorem State.setConv_err1 (s : State) (bs : List Byte) : (s.setConv bs).err1 = s.err1 := rfl
@[simp] theorem State.setConv_status (s : State) (bs : List Byte) : (s.setConv bs).status = s.status := rfl
@[simp] theorem State.setConv_crcr (s : State) (bs : List Byte) : (s.setConv bs).crcr = s.crcr := rfl
@[simp] theorem State.setConv_crcmode (s : State) (bs : List Byte) : (s.setConv bs).crcmode = s.crcmode := rfl
@[simp] theorem State.setConv_crcout (s : State) (bs : List Byte) : (s.setConv bs).crcout = s.crcout := rfl
@[simp] theorem State.setConv_epoch (s : State) (bs : List Byte) : (s.setConv bs).epoch = s.epoch := rfl
@[simp] theorem State.setConv_draws (s : State) (bs : List Byte) : (s.setConv bs).draws = s.draws := rfl
@[simp] theorem State.setConv_pending (s : State) (bs : List Byte) : (s.setConv bs).pending = s.pending := rfl
@[simp] theorem State.setConv_replies (s : State) (bs : List Byte) : (s.setConv bs).replies = s.replies := rfl

/-! ### setDec -/

@[simp] theorem State.setDec_raw (s : State) (bs : List Byte) : (s.setDec bs).raw = s.raw := rfl
@[simp] theorem State.setDec_conv (s : State) (bs : List Byte) : (s.setDec bs).conv = s.conv := rfl
@[simp] theorem State.setDec_dec (s : State) (bs : List Byte) : (s.setDec bs).dec = Memory.ofBytes bs := rfl
@[simp] theorem State.setDec_rs0 (s : State) (bs : List Byte) : (s.setDec bs).rs0 = s.rs0 := rfl
@[simp] theorem State.setDec_rs1 (s : State) (bs : List Byte) : (s.setDec bs).rs1 = s.rs1 := rfl
@[simp] theorem State.setDec_payload (s : State) (bs : List Byte) : (s.setDec bs).payload = s.payload := rfl
@[simp] theorem State.setDec_err0 (s : State) (bs : List Byte) : (s.setDec bs).err0 = s.err0 := rfl
@[simp] theorem State.setDec_err1 (s : State) (bs : List Byte) : (s.setDec bs).err1 = s.err1 := rfl
@[simp] theorem State.setDec_status (s : State) (bs : List Byte) : (s.setDec bs).status = s.status := rfl
@[simp] theorem State.setDec_crcr (s : State) (bs : List Byte) : (s.setDec bs).crcr = s.crcr := rfl
@[simp] theorem State.setDec_crcmode (s : State) (bs : List Byte) : (s.setDec bs).crcmode = s.crcmode := rfl
@[simp] theorem State.setDec_crcout (s : State) (bs : List Byte) : (s.setDec bs).crcout = s.crcout := rfl
@[simp] theorem State.setDec_epoch (s : State) (bs : List Byte) : (s.setDec bs).epoch = s.epoch := rfl
@[simp] theorem State.setDec_draws (s : State) (bs : List Byte) : (s.setDec bs).draws = s.draws := rfl
@[simp] theorem State.setDec_pending (s : State) (bs : List Byte) : (s.setDec bs).pending = s.pending := rfl
@[simp] theorem State.setDec_replies (s : State) (bs : List Byte) : (s.setDec bs).replies = s.replies := rfl

/-! ### setRs0 -/

@[simp] theorem State.setRs0_raw (s : State) (bs : List Byte) : (s.setRs0 bs).raw = s.raw := rfl
@[simp] theorem State.setRs0_conv (s : State) (bs : List Byte) : (s.setRs0 bs).conv = s.conv := rfl
@[simp] theorem State.setRs0_dec (s : State) (bs : List Byte) : (s.setRs0 bs).dec = s.dec := rfl
@[simp] theorem State.setRs0_rs0 (s : State) (bs : List Byte) : (s.setRs0 bs).rs0 = Memory.ofBytes bs := rfl
@[simp] theorem State.setRs0_rs1 (s : State) (bs : List Byte) : (s.setRs0 bs).rs1 = s.rs1 := rfl
@[simp] theorem State.setRs0_payload (s : State) (bs : List Byte) : (s.setRs0 bs).payload = s.payload := rfl
@[simp] theorem State.setRs0_err0 (s : State) (bs : List Byte) : (s.setRs0 bs).err0 = s.err0 := rfl
@[simp] theorem State.setRs0_err1 (s : State) (bs : List Byte) : (s.setRs0 bs).err1 = s.err1 := rfl
@[simp] theorem State.setRs0_status (s : State) (bs : List Byte) : (s.setRs0 bs).status = s.status := rfl
@[simp] theorem State.setRs0_crcr (s : State) (bs : List Byte) : (s.setRs0 bs).crcr = s.crcr := rfl
@[simp] theorem State.setRs0_crcmode (s : State) (bs : List Byte) : (s.setRs0 bs).crcmode = s.crcmode := rfl
@[simp] theorem State.setRs0_crcout (s : State) (bs : List Byte) : (s.setRs0 bs).crcout = s.crcout := rfl
@[simp] theorem State.setRs0_epoch (s : State) (bs : List Byte) : (s.setRs0 bs).epoch = s.epoch := rfl
@[simp] theorem State.setRs0_draws (s : State) (bs : List Byte) : (s.setRs0 bs).draws = s.draws := rfl
@[simp] theorem State.setRs0_pending (s : State) (bs : List Byte) : (s.setRs0 bs).pending = s.pending := rfl
@[simp] theorem State.setRs0_replies (s : State) (bs : List Byte) : (s.setRs0 bs).replies = s.replies := rfl

/-! ### setRs1 -/

@[simp] theorem State.setRs1_raw (s : State) (bs : List Byte) : (s.setRs1 bs).raw = s.raw := rfl
@[simp] theorem State.setRs1_conv (s : State) (bs : List Byte) : (s.setRs1 bs).conv = s.conv := rfl
@[simp] theorem State.setRs1_dec (s : State) (bs : List Byte) : (s.setRs1 bs).dec = s.dec := rfl
@[simp] theorem State.setRs1_rs0 (s : State) (bs : List Byte) : (s.setRs1 bs).rs0 = s.rs0 := rfl
@[simp] theorem State.setRs1_rs1 (s : State) (bs : List Byte) : (s.setRs1 bs).rs1 = Memory.ofBytes bs := rfl
@[simp] theorem State.setRs1_payload (s : State) (bs : List Byte) : (s.setRs1 bs).payload = s.payload := rfl
@[simp] theorem State.setRs1_err0 (s : State) (bs : List Byte) : (s.setRs1 bs).err0 = s.err0 := rfl
@[simp] theorem State.setRs1_err1 (s : State) (bs : List Byte) : (s.setRs1 bs).err1 = s.err1 := rfl
@[simp] theorem State.setRs1_status (s : State) (bs : List Byte) : (s.setRs1 bs).status = s.status := rfl
@[simp] theorem State.setRs1_crcr (s : State) (bs : List Byte) : (s.setRs1 bs).crcr = s.crcr := rfl
@[simp] theorem State.setRs1_crcmode (s : State) (bs : List Byte) : (s.setRs1 bs).crcmode = s.crcmode := rfl
@[simp] theorem State.setRs1_crcout (s : State) (bs : List Byte) : (s.setRs1 bs).crcout = s.crcout := rfl
@[simp] theorem State.setRs1_epoch (s : State) (bs : List Byte) : (s.setRs1 bs).epoch = s.epoch := rfl
@[simp] theorem State.setRs1_draws (s : State) (bs : List Byte) : (s.setRs1 bs).draws = s.draws := rfl
@[simp] theorem State.setRs1_pending (s : State) (bs : List Byte) : (s.setRs1 bs).pending = s.pending := rfl
@[simp] theorem State.setRs1_replies (s : State) (bs : List Byte) : (s.setRs1 bs).replies = s.replies := rfl

/-! ### setPayload -/

@[simp] theorem State.setPayload_raw (s : State) (bs : List Byte) : (s.setPayload bs).raw = s.raw := rfl
@[simp] theorem State.setPayload_conv (s : State) (bs : List Byte) : (s.setPayload bs).conv = s.conv := rfl
@[simp] theorem State.setPayload_dec (s : State) (bs : List Byte) : (s.setPayload bs).dec = s.dec := rfl
@[simp] theorem State.setPayload_rs0 (s : State) (bs : List Byte) : (s.setPayload bs).rs0 = s.rs0 := rfl
@[simp] theorem State.setPayload_rs1 (s : State) (bs : List Byte) : (s.setPayload bs).rs1 = s.rs1 := rfl
@[simp] theorem State.setPayload_payload (s : State) (bs : List Byte) : (s.setPayload bs).payload = Memory.ofBytes bs := rfl
@[simp] theorem State.setPayload_err0 (s : State) (bs : List Byte) : (s.setPayload bs).err0 = s.err0 := rfl
@[simp] theorem State.setPayload_err1 (s : State) (bs : List Byte) : (s.setPayload bs).err1 = s.err1 := rfl
@[simp] theorem State.setPayload_status (s : State) (bs : List Byte) : (s.setPayload bs).status = s.status := rfl
@[simp] theorem State.setPayload_crcr (s : State) (bs : List Byte) : (s.setPayload bs).crcr = s.crcr := rfl
@[simp] theorem State.setPayload_crcmode (s : State) (bs : List Byte) : (s.setPayload bs).crcmode = s.crcmode := rfl
@[simp] theorem State.setPayload_crcout (s : State) (bs : List Byte) : (s.setPayload bs).crcout = s.crcout := rfl
@[simp] theorem State.setPayload_epoch (s : State) (bs : List Byte) : (s.setPayload bs).epoch = s.epoch := rfl
@[simp] theorem State.setPayload_draws (s : State) (bs : List Byte) : (s.setPayload bs).draws = s.draws := rfl
@[simp] theorem State.setPayload_pending (s : State) (bs : List Byte) : (s.setPayload bs).pending = s.pending := rfl
@[simp] theorem State.setPayload_replies (s : State) (bs : List Byte) : (s.setPayload bs).replies = s.replies := rfl

/-! ### onStatus -/

@[simp] theorem State.onStatus_raw (s : State) (f : BitVec 8 → BitVec 8) : (s.onStatus f).raw = s.raw := rfl
@[simp] theorem State.onStatus_conv (s : State) (f : BitVec 8 → BitVec 8) : (s.onStatus f).conv = s.conv := rfl
@[simp] theorem State.onStatus_dec (s : State) (f : BitVec 8 → BitVec 8) : (s.onStatus f).dec = s.dec := rfl
@[simp] theorem State.onStatus_rs0 (s : State) (f : BitVec 8 → BitVec 8) : (s.onStatus f).rs0 = s.rs0 := rfl
@[simp] theorem State.onStatus_rs1 (s : State) (f : BitVec 8 → BitVec 8) : (s.onStatus f).rs1 = s.rs1 := rfl
@[simp] theorem State.onStatus_payload (s : State) (f : BitVec 8 → BitVec 8) : (s.onStatus f).payload = s.payload := rfl
@[simp] theorem State.onStatus_err0 (s : State) (f : BitVec 8 → BitVec 8) : (s.onStatus f).err0 = s.err0 := rfl
@[simp] theorem State.onStatus_err1 (s : State) (f : BitVec 8 → BitVec 8) : (s.onStatus f).err1 = s.err1 := rfl
@[simp] theorem State.onStatus_status (s : State) (f : BitVec 8 → BitVec 8) : (s.onStatus f).status = f s.status := rfl
@[simp] theorem State.onStatus_crcr (s : State) (f : BitVec 8 → BitVec 8) : (s.onStatus f).crcr = s.crcr := rfl
@[simp] theorem State.onStatus_crcmode (s : State) (f : BitVec 8 → BitVec 8) : (s.onStatus f).crcmode = s.crcmode := rfl
@[simp] theorem State.onStatus_crcout (s : State) (f : BitVec 8 → BitVec 8) : (s.onStatus f).crcout = s.crcout := rfl
@[simp] theorem State.onStatus_epoch (s : State) (f : BitVec 8 → BitVec 8) : (s.onStatus f).epoch = s.epoch := rfl
@[simp] theorem State.onStatus_draws (s : State) (f : BitVec 8 → BitVec 8) : (s.onStatus f).draws = s.draws := rfl
@[simp] theorem State.onStatus_pending (s : State) (f : BitVec 8 → BitVec 8) : (s.onStatus f).pending = s.pending := rfl
@[simp] theorem State.onStatus_replies (s : State) (f : BitVec 8 → BitVec 8) : (s.onStatus f).replies = s.replies := rfl

/-! ### useDraws -/

@[simp] theorem State.useDraws_raw (s : State) (n : Nat) : (s.useDraws n).raw = s.raw := rfl
@[simp] theorem State.useDraws_conv (s : State) (n : Nat) : (s.useDraws n).conv = s.conv := rfl
@[simp] theorem State.useDraws_dec (s : State) (n : Nat) : (s.useDraws n).dec = s.dec := rfl
@[simp] theorem State.useDraws_rs0 (s : State) (n : Nat) : (s.useDraws n).rs0 = s.rs0 := rfl
@[simp] theorem State.useDraws_rs1 (s : State) (n : Nat) : (s.useDraws n).rs1 = s.rs1 := rfl
@[simp] theorem State.useDraws_payload (s : State) (n : Nat) : (s.useDraws n).payload = s.payload := rfl
@[simp] theorem State.useDraws_err0 (s : State) (n : Nat) : (s.useDraws n).err0 = s.err0 := rfl
@[simp] theorem State.useDraws_err1 (s : State) (n : Nat) : (s.useDraws n).err1 = s.err1 := rfl
@[simp] theorem State.useDraws_status (s : State) (n : Nat) : (s.useDraws n).status = s.status := rfl
@[simp] theorem State.useDraws_crcr (s : State) (n : Nat) : (s.useDraws n).crcr = s.crcr := rfl
@[simp] theorem State.useDraws_crcmode (s : State) (n : Nat) : (s.useDraws n).crcmode = s.crcmode := rfl
@[simp] theorem State.useDraws_crcout (s : State) (n : Nat) : (s.useDraws n).crcout = s.crcout := rfl
@[simp] theorem State.useDraws_epoch (s : State) (n : Nat) : (s.useDraws n).epoch = s.epoch := rfl
@[simp] theorem State.useDraws_draws (s : State) (n : Nat) : (s.useDraws n).draws = s.draws + n := rfl
@[simp] theorem State.useDraws_pending (s : State) (n : Nat) : (s.useDraws n).pending = s.pending := rfl
@[simp] theorem State.useDraws_replies (s : State) (n : Nat) : (s.useDraws n).replies = s.replies := rfl

/-! ### answer -/

@[simp] theorem State.answer_raw (s : State) (r : Reply) : (s.answer r).raw = s.raw := rfl
@[simp] theorem State.answer_conv (s : State) (r : Reply) : (s.answer r).conv = s.conv := rfl
@[simp] theorem State.answer_dec (s : State) (r : Reply) : (s.answer r).dec = s.dec := rfl
@[simp] theorem State.answer_rs0 (s : State) (r : Reply) : (s.answer r).rs0 = s.rs0 := rfl
@[simp] theorem State.answer_rs1 (s : State) (r : Reply) : (s.answer r).rs1 = s.rs1 := rfl
@[simp] theorem State.answer_payload (s : State) (r : Reply) : (s.answer r).payload = s.payload := rfl
@[simp] theorem State.answer_err0 (s : State) (r : Reply) : (s.answer r).err0 = s.err0 := rfl
@[simp] theorem State.answer_err1 (s : State) (r : Reply) : (s.answer r).err1 = s.err1 := rfl
@[simp] theorem State.answer_status (s : State) (r : Reply) : (s.answer r).status = s.status := rfl
@[simp] theorem State.answer_crcr (s : State) (r : Reply) : (s.answer r).crcr = s.crcr := rfl
@[simp] theorem State.answer_crcmode (s : State) (r : Reply) : (s.answer r).crcmode = s.crcmode := rfl
@[simp] theorem State.answer_crcout (s : State) (r : Reply) : (s.answer r).crcout = s.crcout := rfl
@[simp] theorem State.answer_epoch (s : State) (r : Reply) : (s.answer r).epoch = s.epoch := rfl
@[simp] theorem State.answer_draws (s : State) (r : Reply) : (s.answer r).draws = s.draws := rfl
@[simp] theorem State.answer_pending (s : State) (r : Reply) : (s.answer r).pending = s.pending := rfl
@[simp] theorem State.answer_replies (s : State) (r : Reply) : (s.answer r).replies = r :: s.replies := rfl

end Sys2Proof.Machine
end

