-- ==== Sys2Proof/Laws/Memory.lean ====
section
/-! SUPPORT. The buffers: read after write, the canonical form and that every operation keeps it, whole-buffer writes,
and reading an element of a state after an update. -/

namespace Sys2Proof.Machine

namespace Memory

@[simp] theorem find_nil (i : Nat) : find [] i = none := rfl

/-- A write is read back. -/
@[simp] theorem find_set_same (m : Memory) (i : Nat) (v : Byte) : find (set m i v) i = some v := by
  induction m with
  | nil => simp [set, find]
  | cons c m ih =>
    obtain ⟨a, w⟩ := c
    simp only [set]
    split
    · simp [find]
    · split
      · simp [find]
      · have : a ≠ i := by omega
        simp [find, this, ih]

/-- A write leaves every other element alone. -/
theorem find_set_other (m : Memory) {i j : Nat} (v : Byte) (h : j ≠ i) : find (set m i v) j = find m j := by
  induction m with
  | nil => simp [set, find, h.symm]
  | cons c m ih =>
    obtain ⟨a, w⟩ := c
    simp only [set]
    split
    · simp [find, h.symm]
    · split
      · next hi => subst hi; simp [find, h.symm]
      · simp only [find, ih]

/-- The cells after a write are the written one and cells that were there before. -/
theorem mem_set {m : Memory} {i : Nat} {v : Byte} {c : Host.Cell} (h : c ∈ set m i v) : c = (i, v) ∨ c ∈ m := by
  induction m with
  | nil => simpa [set] using h
  | cons d m ih =>
    obtain ⟨a, w⟩ := d
    simp only [set] at h
    split at h
    · simpa using h
    · split at h
      · simp only [List.mem_cons] at h ⊢
        tauto
      · simp only [List.mem_cons] at h ⊢
        rcases h with h | h
        · exact .inr (.inl h)
        · exact (ih h).imp id .inr

/-- A write keeps the indices strictly rising. -/
theorem pairwise_set {m : Memory} (h : m.Pairwise fun a b => a.1 < b.1) (i : Nat) (v : Byte) :
    (set m i v).Pairwise fun a b => a.1 < b.1 := by
  induction m with
  | nil => simp [set]
  | cons c m ih =>
    obtain ⟨a, w⟩ := c
    rw [List.pairwise_cons] at h
    simp only [set]
    split
    · next hi =>
      refine List.pairwise_cons.2 ⟨fun b hb => ?_, List.pairwise_cons.2 h⟩
      rcases List.mem_cons.1 hb with rfl | hb
      · exact hi
      · exact hi.trans (h.1 b hb)
    · split
      · next hi => subst hi; exact List.pairwise_cons.2 h
      · refine List.pairwise_cons.2 ⟨fun b hb => ?_, ih h.2⟩
        rcases mem_set hb with rfl | hb
        · show a < i
          omega
        · exact h.1 b hb

/-- A write within the buffer keeps the canonical form. -/
theorem wf_set {len : Nat} {m : Memory} (h : m.wf len) {i : Nat} (hi : i < len) (v : Byte) : (set m i v).wf len := by
  refine ⟨pairwise_set h.1 i v, fun c hc => ?_⟩
  rcases mem_set hc with rfl | hc
  · exact hi
  · exact h.2 c hc

/-- Reset memory is canonical. -/
theorem wf_nil (len : Nat) : Memory.wf len [] := ⟨.nil, by simp⟩

theorem find_cellsFrom (k i : Nat) (bs : List Byte) (h : k ≤ i) : find (cellsFrom k bs) i = bs[i - k]? := by
  induction bs generalizing k with
  | nil => simp [cellsFrom]
  | cons b bs ih =>
    simp only [cellsFrom, find]
    split
    · next hk => subst hk; simp
    · have hki : k + 1 ≤ i := by omega
      rw [ih (k + 1) hki, show i - k = (i - (k + 1)) + 1 by omega]
      rfl

/-- An element of a buffer that has been written completely. -/
@[simp] theorem find_ofBytes (bs : List Byte) (i : Nat) : find (ofBytes bs) i = bs[i]? := by
  simp [ofBytes, find_cellsFrom]

theorem wf_cellsFrom (k : Nat) (bs : List Byte) :
    (cellsFrom k bs).Pairwise (fun a b => a.1 < b.1) ∧ ∀ c ∈ cellsFrom k bs, k ≤ c.1 ∧ c.1 < k + bs.length := by
  induction bs generalizing k with
  | nil => simp [cellsFrom]
  | cons b bs ih =>
    obtain ⟨hp, hm⟩ := ih (k + 1)
    refine ⟨List.pairwise_cons.2 ⟨fun c hc => ?_, hp⟩, fun c hc => ?_⟩
    · have := (hm c hc).1
      show k < c.1
      omega
    · rcases List.mem_cons.1 hc with rfl | hc
      · simp
      · have := hm c hc
        simp only [List.length_cons]
        omega

/-- A whole-buffer write gives a canonical buffer. -/
theorem wf_ofBytes {len : Nat} {bs : List Byte} (h : bs.length ≤ len) : (ofBytes bs).wf len := by
  obtain ⟨hp, hm⟩ := wf_cellsFrom 0 bs
  refine ⟨hp, fun c hc => ?_⟩
  have := (hm c hc).2
  omega

end Memory

/-- An element inside a buffer that has been written completely. -/
theorem readCell_ofBytes (epoch : Nat) (sp : Space) (bs : List Byte) {i : Nat} (h : i < bs.length) :
    readCell epoch sp (Memory.ofBytes bs) i = bs.getD i 0 := by
  simp [readCell, h]

@[simp] theorem readCell_nil (epoch : Nat) (sp : Space) (i : Nat) : readCell epoch sp [] i = unwritten epoch sp i := rfl

@[simp] theorem readCell_set_same (epoch : Nat) (sp : Space) (m : Memory) (i : Nat) (v : Byte) :
    readCell epoch sp (Memory.set m i v) i = v := by
  simp [readCell]

theorem readCell_set_other (epoch : Nat) (sp : Space) (m : Memory) {i j : Nat} (v : Byte) (h : j ≠ i) :
    readCell epoch sp (Memory.set m i v) j = readCell epoch sp m j := by
  simp [readCell, Memory.find_set_other m v h]

namespace State

/-! An element of each buffer. -/

theorem element_raw (s : State) (i : Nat) : s.element .raw i = readCell s.epoch .raw s.raw i := rfl
theorem element_conv (s : State) (i : Nat) : s.element .conv i = readCell s.epoch .conv s.conv i := rfl
theorem element_dec (s : State) (i : Nat) : s.element .dec i = readCell s.epoch .dec s.dec i := rfl
theorem element_rs0 (s : State) (i : Nat) : s.element .rs0 i = readCell s.epoch .rs0 s.rs0 i := rfl
theorem element_rs1 (s : State) (i : Nat) : s.element .rs1 i = readCell s.epoch .rs1 s.rs1 i := rfl
theorem element_payload (s : State) (i : Nat) : s.element .payload i = readCell s.epoch .payload s.payload i := rfl

/-- An element of RAW when all of it has been written. -/
theorem element_raw_of_eq {s : State} {bs : List Byte} (h : s.raw = Memory.ofBytes bs) {i : Nat} (hi : i < bs.length) :
    s.element .raw i = bs.getD i 0 := by
  rw [element_raw, h]
  exact readCell_ofBytes _ _ _ hi

/-- An element of CONV when all of it has been written. -/
theorem element_conv_of_eq {s : State} {bs : List Byte} (h : s.conv = Memory.ofBytes bs) {i : Nat} (hi : i < bs.length) :
    s.element .conv i = bs.getD i 0 := by
  rw [element_conv, h]
  exact readCell_ofBytes _ _ _ hi

/-- An element of DEC when all of it has been written. -/
theorem element_dec_of_eq {s : State} {bs : List Byte} (h : s.dec = Memory.ofBytes bs) {i : Nat} (hi : i < bs.length) :
    s.element .dec i = bs.getD i 0 := by
  rw [element_dec, h]
  exact readCell_ofBytes _ _ _ hi

/-- An element of RS[0] when all of it has been written. -/
theorem element_rs0_of_eq {s : State} {bs : List Byte} (h : s.rs0 = Memory.ofBytes bs) {i : Nat} (hi : i < bs.length) :
    s.element .rs0 i = bs.getD i 0 := by
  rw [element_rs0, h]
  exact readCell_ofBytes _ _ _ hi

/-- An element of RS[1] when all of it has been written. -/
theorem element_rs1_of_eq {s : State} {bs : List Byte} (h : s.rs1 = Memory.ofBytes bs) {i : Nat} (hi : i < bs.length) :
    s.element .rs1 i = bs.getD i 0 := by
  rw [element_rs1, h]
  exact readCell_ofBytes _ _ _ hi

/-- An element of PAYLOAD when all of it has been written. -/
theorem element_payload_of_eq {s : State} {bs : List Byte} (h : s.payload = Memory.ofBytes bs) {i : Nat} (hi : i < bs.length) :
    s.element .payload i = bs.getD i 0 := by
  rw [element_payload, h]
  exact readCell_ofBytes _ _ _ hi

/-- An element depends on the six buffers, the two counts and the epoch alone. -/
theorem element_congr {s t : State} (hraw : t.raw = s.raw) (hconv : t.conv = s.conv) (hdec : t.dec = s.dec)
    (hrs0 : t.rs0 = s.rs0) (hrs1 : t.rs1 = s.rs1) (hpay : t.payload = s.payload) (h0 : t.err0 = s.err0)
    (h1 : t.err1 = s.err1) (he : t.epoch = s.epoch) (sp : Space) (i : Nat) : t.element sp i = s.element sp i := by
  cases sp <;> simp [element, *]

@[simp] theorem element_onStatus (s : State) (f : BitVec 8 → BitVec 8) (sp : Space) (i : Nat) :
    (s.onStatus f).element sp i = s.element sp i := by cases sp <;> rfl

@[simp] theorem element_useDraws (s : State) (n : Nat) (sp : Space) (i : Nat) : (s.useDraws n).element sp i = s.element sp i := by
  cases sp <;> rfl

@[simp] theorem element_answer (s : State) (r : Reply) (sp : Space) (i : Nat) :
    (s.answer r).element sp i = s.element sp i := by cases sp <;> rfl

theorem element_setConv_other (s : State) (bs : List Byte) {sp : Space} (h : sp ≠ .conv) (i : Nat) :
    (s.setConv bs).element sp i = s.element sp i := by cases sp <;> first | rfl | exact absurd rfl h

theorem element_setDec_other (s : State) (bs : List Byte) {sp : Space} (h : sp ≠ .dec) (i : Nat) :
    (s.setDec bs).element sp i = s.element sp i := by cases sp <;> first | rfl | exact absurd rfl h

theorem element_setRs0_other (s : State) (bs : List Byte) {sp : Space} (h : sp ≠ .rs0) (i : Nat) :
    (s.setRs0 bs).element sp i = s.element sp i := by cases sp <;> first | rfl | exact absurd rfl h

theorem element_setRs1_other (s : State) (bs : List Byte) {sp : Space} (h : sp ≠ .rs1) (i : Nat) :
    (s.setRs1 bs).element sp i = s.element sp i := by cases sp <;> first | rfl | exact absurd rfl h

theorem element_setPayload_other (s : State) (bs : List Byte) {sp : Space} (h : sp ≠ .payload) (i : Nat) :
    (s.setPayload bs).element sp i = s.element sp i := by cases sp <;> first | rfl | exact absurd rfl h

theorem element_setConv (s : State) (bs : List Byte) {i : Nat} (h : i < bs.length) :
    (s.setConv bs).element .conv i = bs.getD i 0 := readCell_ofBytes _ _ _ h

theorem element_setDec (s : State) (bs : List Byte) {i : Nat} (h : i < bs.length) :
    (s.setDec bs).element .dec i = bs.getD i 0 := readCell_ofBytes _ _ _ h

theorem element_setRs0 (s : State) (bs : List Byte) {i : Nat} (h : i < bs.length) :
    (s.setRs0 bs).element .rs0 i = bs.getD i 0 := readCell_ofBytes _ _ _ h

theorem element_setRs1 (s : State) (bs : List Byte) {i : Nat} (h : i < bs.length) :
    (s.setRs1 bs).element .rs1 i = bs.getD i 0 := readCell_ofBytes _ _ _ h

theorem element_setPayload (s : State) (bs : List Byte) {i : Nat} (h : i < bs.length) :
    (s.setPayload bs).element .payload i = bs.getD i 0 := readCell_ofBytes _ _ _ h

@[simp] theorem length_bytes (s : State) (sp : Space) : (s.bytes sp).length = sp.len := by simp [bytes]

theorem getD_bytes (s : State) (sp : Space) {i : Nat} (h : i < sp.len) : (s.bytes sp).getD i 0 = s.element sp i := by
  simp [bytes, h]

/-- Two states that agree on the elements of a space have the same bytes there. -/
theorem bytes_congr {s t : State} {sp : Space} (h : ∀ i, i < sp.len → t.element sp i = s.element sp i) :
    t.bytes sp = s.bytes sp :=
  List.map_congr_left fun i hi => h i (List.mem_range.1 hi)

end State

end Sys2Proof.Machine
end

