-- ==== Sys2Proof/Laws/Ops.lean ====
section
/-! SUPPORT. What each shared operation can do, said once: the fault primitive, the command wrapper, the rejection of a
word, the reset event, the host port and the step. -/

namespace Sys2Proof.Machine

/-- The fault primitive changes STATUS and nothing else (R187). -/
theorem raiseFault_eq (c : Cause) (s : State) : raiseFault c s = { s with status := (raiseFault c s).status } := by
  unfold raiseFault
  split <;> rfl

/-- With FAULT = 0 the fault primitive sets FAULT and CAUSE (R187). -/
theorem raiseFault_status {c : Cause} {s : State} (h : s.faulted = false) :
    (raiseFault c s).status = Status.setBusy false (Status.setDone false (Status.setCause c.code (Status.setFault s.status))) := by
  simp [raiseFault, h]

/-- With FAULT = 1 the fault primitive keeps FAULT and CAUSE (R187: the first cause is kept). -/
theorem raiseFault_status_of_faulted {c : Cause} {s : State} (h : s.faulted = true) :
    (raiseFault c s).status = Status.setBusy false (Status.setDone false s.status) := by
  simp [raiseFault, h]

/-- The fault primitive moves no data. -/
@[simp] theorem element_raiseFault (c : Cause) (s : State) (sp : Space) (i : Nat) :
    (raiseFault c s).element sp i = s.element sp i := by
  rw [raiseFault_eq]
  cases sp <;> rfl

/-- A command is refused without a state change while FAULT = 1 (R194). -/
theorem runCommand_of_faulted (effect : State → State) {s : State} (h : s.faulted = true) :
    runCommand effect s = .next s := by simp [runCommand, h]

/-- With FAULT = 0 a command completes (R81). -/
theorem runCommand_of_not_faulted (effect : State → State) {s : State} (h : s.faulted = false) :
    runCommand effect s = .next (endCommand (effect (beginCommand s))) := by simp [runCommand, h]

/-- Everything the command wrapper can answer. -/
theorem runCommand_cases {effect : State → State} {s t : State} (h : runCommand effect s = .next t) :
    (s.faulted = true ∧ t = s) ∨ (s.faulted = false ∧ t = endCommand (effect (beginCommand s))) := by
  unfold runCommand at h
  split at h
  · next hf => exact .inl ⟨hf, by injection h with h; exact h.symm⟩
  · next hf => exact .inr ⟨by simpa using hf, by injection h with h; exact h.symm⟩

@[simp] theorem element_beginCommand (s : State) (sp : Space) (i : Nat) :
    (beginCommand s).element sp i = s.element sp i := State.element_onStatus _ _ _ _

@[simp] theorem element_endCommand (s : State) (sp : Space) (i : Nat) :
    (endCommand s).element sp i = s.element sp i := State.element_onStatus _ _ _ _

/-- A completed command whose rule leaves STATUS alone (R81). -/
theorem status_completed {effect : State → State} (heff : ∀ s, (effect s).status = s.status) (s : State) :
    Status.Completed s.status (endCommand (effect (beginCommand s))).status := by
  have : (endCommand (effect (beginCommand s))).status =
      Status.setDone true (Status.setBusy false (Status.setBusy true (Status.setDone false s.status))) := by
    simp [endCommand, beginCommand, heff]
  rw [this]
  constructor <;> simp

/-- A rejected word: nothing while FAULT = 1, otherwise the fault, and nothing else changes (R74, R75). -/
theorem rejectWord_cases {e : DecodeError} {s t : State} (h : rejectWord e s = .next t) :
    (s.faulted = true ∧ t = s) ∨
    (s.faulted = false ∧ ∃ st, t = { s with status := st } ∧
      Status.Faulted (Cause.ofDecodeError e) s.status st) := by
  unfold rejectWord at h
  split at h
  · next hf => exact .inl ⟨hf, by injection h with h; exact h.symm⟩
  · next hf =>
    have hf : s.faulted = false := by simpa using hf
    have hf' : (s.onStatus (Status.setDone false)).faulted = false := by
      simpa [State.faulted] using hf
    injection h with h
    refine .inr ⟨hf, _, by rw [← h, raiseFault_eq]; rfl, ?_⟩
    rw [raiseFault_status hf']
    constructor <;> simp

/-- Every command is its rule inside the command wrapper (R81). -/
def effectOf : Instr → State → State
  | .deint => deintEffect
  | .viterbi => viterbiEffect
  | .descr => descrEffect
  | .rsdec b => rsdecEffect b
  | .assemble => assembleEffect
  | .decode => decodeEffect
  | .crcinit m => crcinitEffect m
  | .crcbyte imm8 => crcbyteEffect imm8
  | .crcfin => crcfinEffect

theorem exec_eq (i : Instr) (s : State) : exec i s = runCommand (effectOf i) s := by cases i <;> rfl

/-- Issue of a legal word is the command's `exec`. -/
theorem issue_of_legal {w : CommandWord} {i : Instr} (h : decodeWord w = .ok i) (s : State) : issue w s = exec i s := by
  simp [issue, h]

/-- Issue of any other word is rejected. -/
theorem issue_of_illegal {w : CommandWord} {e : DecodeError} (h : decodeWord w = .error e) (s : State) :
    issue w s = rejectWord e s := by
  simp [issue, h]

/-- Every existing (space, index) pair names its element (R50). -/
theorem location_id (sp : Space) {i : Nat} (h : i < sp.len) : location sp.id i = some sp := by
  cases sp <;> simp_all [location, Space.ofId, Space.id]

/-- The host port's checks are those of WellFormed (R54). -/
theorem location_eq_none {space i : Nat} : location space i = none ↔ WellFormed.readAccess space i = false := by
  unfold location WellFormed.readAccess
  cases Space.ofId space <;> simp

/-- A pair that names an element is an id and an index in range. -/
theorem location_some {space i : Nat} {sp : Space} (h : location space i = some sp) : space = sp.id ∧ i < sp.len := by
  unfold location at h
  split at h
  · next sp' hs =>
    split at h
    · next hi =>
      injection h with h
      subst h
      refine ⟨?_, hi⟩
      unfold Space.ofId at hs
      split at hs <;> simp at hs <;> subst hs <;> rfl
    · exact absurd h (by simp)
  · exact absurd h (by simp)

end Sys2Proof.Machine
end

