-- ==== Sys2Proof/Laws/Units.lean ====
section
/-! SUPPORT. The sizes of what each unit produces, and the small facts of each unit that later proofs cite instead of
unfolding it. -/

namespace Sys2Proof.Machine

/-- DEINT emits one element a step (R90). -/
@[simp] theorem length_deintWalk (P : Params) (raw : Nat → Byte) (n k off : Nat) :
    (deintWalk P raw n k off).length = n := by
  induction n generalizing k off with
  | zero => rfl
  | succ n ih => simp [deintWalk, ih]

@[simp] theorem length_packBits (n : Nat) (ubit : List Bool) : (packBits n ubit).length = n := by simp [packBits]

@[simp] theorem length_acsStep (P : Params) (pm : List Nat) (x : Byte × Byte) : (acsStep P pm x).length = 64 := by
  simp [acsStep]

@[simp] theorem length_initialMetrics : initialMetrics.length = 64 := by simp [initialMetrics]

@[simp] theorem length_softPairs (conv : Nat → Byte) : (softPairs conv).length = 2566 := by simp [softPairs]

/-- There is one decision row a step (R106). -/
theorem length_acsRun_decisions (P : Params) (xs : List (Byte × Byte)) (pm : List Nat) (decn : List (List Bool)) :
    (acsRun P xs pm decn).2.length = xs.length + decn.length := by
  induction xs generalizing pm decn with
  | nil => simp [acsRun]
  | cons x xs ih => simp [acsRun, ih]; omega

/-- The metrics stay one per state (R105). -/
theorem length_acsRun_metrics (P : Params) (xs : List (Byte × Byte)) (pm : List Nat) (decn : List (List Bool))
    (h : pm.length = 64) : (acsRun P xs pm decn).1.length = 64 := by
  induction xs generalizing pm decn with
  | nil => simpa [acsRun] using h
  | cons x xs ih => exact ih _ _ (by simp)

/-- The traceback recovers one bit a decision row (R108). -/
@[simp] theorem length_traceback (decn : List (List Bool)) (tbs : Nat) (ubit : List Bool) :
    (traceback decn tbs ubit).length = decn.length + ubit.length := by
  induction decn generalizing tbs ubit with
  | nil => simp [traceback]
  | cons d decn ih => simp [traceback, ih]; omega

@[simp] theorem length_viterbiBits (P : Params) (conv : Nat → Byte) : (viterbiBits P conv).length = 2566 := by
  simp [viterbiBits, length_acsRun_decisions]

@[simp] theorem length_descramble (P : Params) (dec : Nat → Byte) : (descramble P dec).length = 320 := by
  simp [descramble]

/-- Dealing splits the length in halves (R120). -/
theorem length_deal (vs : List Byte) :
    (deal vs).1.length = (vs.length + 1) / 2 ∧ (deal vs).2.length = vs.length / 2 := by
  match vs with
  | [] => exact ⟨rfl, rfl⟩
  | [_] => simp [deal]
  | _ :: _ :: vs =>
    obtain ⟨h₁, h₂⟩ := length_deal vs
    simp only [deal, List.length_cons, h₁, h₂]
    omega

@[simp] theorem length_syndromes (P : Params) (r : List Byte) : (syndromes P r).length = 32 := by simp [syndromes]

@[simp] theorem length_addShifted (P : Params) (lam bpol : List Byte) (q : Byte) (msh : Nat) :
    (addShifted P lam bpol q msh).length = 33 := by simp [addShifted]

@[simp] theorem length_omega (P : Params) (syn lam : List Byte) : (omega P syn lam).length = 32 := by simp [omega]

/-- The corrector changes no length (R144). -/
@[simp] theorem length_applyErrors (r : List Byte) (es : List (Nat × Byte)) : (applyErrors r es).length = r.length := by
  induction es generalizing r with
  | nil => rfl
  | cons e es ih => simp [applyErrors, ih]

@[simp] theorem length_freeBlock (draw : Nat) (b : BitVec 1) : (freeBlock draw b).length = 160 := by simp [freeBlock]

/-- Everything the reference algorithm can answer (R146, R150): the word itself with count 0 and zero syndromes, a
word of the same length with a count of at most 16, or the verdict. -/
theorem rsDecode_cases (P : Params) (r : List Byte) :
    (rsDecode P r = .corrected r 0 ∧ ∀ y ∈ syndromes P r, y = 0) ∨
    (∃ es, rsDecode P r = .corrected (applyErrors r es) (berlekampMassey P (syndromes P r)).len ∧
      (berlekampMassey P (syndromes P r)).len ≤ 16) ∨
    rsDecode P r = .uncorrectable := by
  unfold rsDecode
  simp only []
  split
  · next h => exact .inl ⟨rfl, by simpa using h⟩
  · split
    · exact .inr (.inr rfl)
    · next hlen =>
      split
      · exact .inr (.inr rfl)
      · split
        · exact .inr (.inr rfl)
        · split
          · next es _ => exact .inr (.inl ⟨es, rfl, by simpa using hlen⟩)
          · exact .inr (.inr rfl)

/-- The parameters of this hardware leave a failed block unspecified (R147). -/
theorem params_rsFailContent : params.rsFailContent = .any := rfl

theorem params_rsSentinel : params.rsSentinel = 0xFF := rfl

/-- The product of zero and anything is zero (R132). -/
theorem gmul_zero_left : ∀ a : Byte, gmul params 0#8 a = 0#8 := by decide +kernel

/-- LOG, the inverse and the powers of a non-zero element (R133, R134). -/
theorem glog_of_ne_zero (P : Params) {a : Byte} (h : a ≠ 0) : glog P a = (expTable P).idxOf a := if_neg h

theorem ginv_of_ne_zero (P : Params) {a : Byte} (h : a ≠ 0) :
    ginv P a = gexp P ((Config.nn - glog P a) % Config.nn) := if_neg h

theorem gpow_of_ne_zero (P : Params) {a : Byte} (h : a ≠ 0) (e : Int) :
    gpow P a e = gexp P (((glog P a : Int) * e) % Config.nn).toNat := if_neg h

/-- Evaluating an argument first changes nothing. -/
@[simp] theorem force_eq {α : Type} (v : Byte) (f : Byte → α) : force v f = f v := by
  unfold force
  split
  · next h => rw [show v = 0 from BitVec.eq_of_toNat_eq (by simpa using h)]
  · next n h => rw [show n + 1 = v.toNat from h.symm, BitVec.ofNat_toNat, BitVec.setWidth_eq]

/-- The powers of alpha, one after the other (R133). -/
theorem powersFrom_succ (P : Params) (n : Nat) (a : Byte) :
    powersFrom P (n + 1) a = a :: powersFrom P n (gmul P a 0x02) := by simp [powersFrom]

/-- Horner's rule as a fold (R138). -/
theorem hornerFrom_eq_foldl (P : Params) (x : Byte) (r : List Byte) (y : Byte) :
    hornerFrom P x r y = r.foldl (fun y c => gadd (gmul P y x) c) y := by
  induction r generalizing y with
  | nil => rfl
  | cons c r ih => simp [hornerFrom, ih]

theorem evalWord_eq_foldl (P : Params) (r : List Byte) (x : Byte) :
    evalWord P r x = r.foldl (fun y c => gadd (gmul P y x) c) 0 := hornerFrom_eq_foldl P x r 0

/-- The all-zero word vanishes everywhere. -/
theorem evalWord_zero (n : Nat) (x : Byte) : evalWord params (List.replicate n 0#8) x = 0#8 := by
  induction n with
  | zero => rfl
  | succ n ih =>
    rw [evalWord_eq_foldl] at ih ⊢
    have h : gadd (gmul params 0 x) 0#8 = 0#8 := by
      rw [show gmul params 0 x = 0#8 from gmul_zero_left x]
      rfl
    rw [List.replicate_succ, List.foldl_cons, h]
    exact ih

end Sys2Proof.Machine
end

