-- ==== Sys2Proof/Laws/Effects.lean ====
section
/-! SUPPORT. What the rule of each command writes, said once: the fields it leaves alone, and what it puts in the
others. -/

namespace Sys2Proof.Machine

theorem State.block_zero (s : State) : s.block 0 = s.bytes .rs0 := rfl
theorem State.block_one (s : State) : s.block 1 = s.bytes .rs1 := rfl

@[simp] theorem State.length_block (s : State) (b : BitVec 1) : (s.block b).length = 160 := by
  unfold State.block blockSpace
  split <;> simp [Space.len]

/-- A one-bit block number is 0 or 1 (R73). -/
theorem bit_cases : ∀ b : BitVec 1, b = 0 ∨ b = 1 := by decide

/-- The rule of RSDEC writes its block and its count, or, on the verdict, free bytes, the sentinel and one draw
(R130, R146, R147). -/
theorem rsdecEffect_cases (b : BitVec 1) (s : State) :
    (∃ word count, rsDecode params (s.block b) = .corrected word count ∧ word.length = 160 ∧ count ≤ 16 ∧
      rsdecEffect b s = ((s.setBlock b word).setErr b (BitVec.ofNat 8 count)).useDraws 0) ∨
    (rsDecode params (s.block b) = .uncorrectable ∧
      rsdecEffect b s = ((s.setBlock b (freeBlock s.draws b)).setErr b 0xFF).useDraws 1) := by
  rcases rsDecode_cases params (s.block b) with ⟨h, -⟩ | ⟨es, h, hlen⟩ | h
  · exact .inl ⟨_, _, h, by simp, by simp, by simp [rsdecEffect, h, RsVerdict.content, RsVerdict.err, RsVerdict.drawsUsed]⟩
  · exact .inl ⟨_, _, h, by simp, hlen, by simp [rsdecEffect, h, RsVerdict.content, RsVerdict.err, RsVerdict.drawsUsed]⟩
  · exact .inr ⟨h, by
      simp [rsdecEffect, h, RsVerdict.content, RsVerdict.err, RsVerdict.drawsUsed, params_rsFailContent,
        params_rsSentinel]⟩

/-! ### The fields each rule leaves alone -/

@[simp] theorem deintEffect_raw (s : State) : (deintEffect s).raw = s.raw := State.setConv_raw s _
@[simp] theorem deintEffect_dec (s : State) : (deintEffect s).dec = s.dec := State.setConv_dec s _
@[simp] theorem deintEffect_rs0 (s : State) : (deintEffect s).rs0 = s.rs0 := State.setConv_rs0 s _
@[simp] theorem deintEffect_rs1 (s : State) : (deintEffect s).rs1 = s.rs1 := State.setConv_rs1 s _
@[simp] theorem deintEffect_payload (s : State) : (deintEffect s).payload = s.payload := State.setConv_payload s _
@[simp] theorem deintEffect_err0 (s : State) : (deintEffect s).err0 = s.err0 := State.setConv_err0 s _
@[simp] theorem deintEffect_err1 (s : State) : (deintEffect s).err1 = s.err1 := State.setConv_err1 s _
@[simp] theorem deintEffect_status (s : State) : (deintEffect s).status = s.status := State.setConv_status s _
@[simp] theorem deintEffect_crcr (s : State) : (deintEffect s).crcr = s.crcr := State.setConv_crcr s _
@[simp] theorem deintEffect_crcmode (s : State) : (deintEffect s).crcmode = s.crcmode := State.setConv_crcmode s _
@[simp] theorem deintEffect_crcout (s : State) : (deintEffect s).crcout = s.crcout := State.setConv_crcout s _
@[simp] theorem deintEffect_epoch (s : State) : (deintEffect s).epoch = s.epoch := State.setConv_epoch s _
@[simp] theorem deintEffect_draws (s : State) : (deintEffect s).draws = s.draws := State.setConv_draws s _
@[simp] theorem deintEffect_pending (s : State) : (deintEffect s).pending = s.pending := State.setConv_pending s _
@[simp] theorem deintEffect_replies (s : State) : (deintEffect s).replies = s.replies := State.setConv_replies s _

@[simp] theorem viterbiEffect_raw (s : State) : (viterbiEffect s).raw = s.raw := State.setDec_raw s _
@[simp] theorem viterbiEffect_conv (s : State) : (viterbiEffect s).conv = s.conv := State.setDec_conv s _
@[simp] theorem viterbiEffect_rs0 (s : State) : (viterbiEffect s).rs0 = s.rs0 := State.setDec_rs0 s _
@[simp] theorem viterbiEffect_rs1 (s : State) : (viterbiEffect s).rs1 = s.rs1 := State.setDec_rs1 s _
@[simp] theorem viterbiEffect_payload (s : State) : (viterbiEffect s).payload = s.payload := State.setDec_payload s _
@[simp] theorem viterbiEffect_err0 (s : State) : (viterbiEffect s).err0 = s.err0 := State.setDec_err0 s _
@[simp] theorem viterbiEffect_err1 (s : State) : (viterbiEffect s).err1 = s.err1 := State.setDec_err1 s _
@[simp] theorem viterbiEffect_status (s : State) : (viterbiEffect s).status = s.status := State.setDec_status s _
@[simp] theorem viterbiEffect_crcr (s : State) : (viterbiEffect s).crcr = s.crcr := State.setDec_crcr s _
@[simp] theorem viterbiEffect_crcmode (s : State) : (viterbiEffect s).crcmode = s.crcmode := State.setDec_crcmode s _
@[simp] theorem viterbiEffect_crcout (s : State) : (viterbiEffect s).crcout = s.crcout := State.setDec_crcout s _
@[simp] theorem viterbiEffect_epoch (s : State) : (viterbiEffect s).epoch = s.epoch := State.setDec_epoch s _
@[simp] theorem viterbiEffect_draws (s : State) : (viterbiEffect s).draws = s.draws := State.setDec_draws s _
@[simp] theorem viterbiEffect_pending (s : State) : (viterbiEffect s).pending = s.pending := State.setDec_pending s _
@[simp] theorem viterbiEffect_replies (s : State) : (viterbiEffect s).replies = s.replies := State.setDec_replies s _

@[simp] theorem assembleEffect_raw (s : State) : (assembleEffect s).raw = s.raw := State.setPayload_raw s _
@[simp] theorem assembleEffect_conv (s : State) : (assembleEffect s).conv = s.conv := State.setPayload_conv s _
@[simp] theorem assembleEffect_dec (s : State) : (assembleEffect s).dec = s.dec := State.setPayload_dec s _
@[simp] theorem assembleEffect_rs0 (s : State) : (assembleEffect s).rs0 = s.rs0 := State.setPayload_rs0 s _
@[simp] theorem assembleEffect_rs1 (s : State) : (assembleEffect s).rs1 = s.rs1 := State.setPayload_rs1 s _
@[simp] theorem assembleEffect_err0 (s : State) : (assembleEffect s).err0 = s.err0 := State.setPayload_err0 s _
@[simp] theorem assembleEffect_err1 (s : State) : (assembleEffect s).err1 = s.err1 := State.setPayload_err1 s _
@[simp] theorem assembleEffect_status (s : State) : (assembleEffect s).status = s.status := State.setPayload_status s _
@[simp] theorem assembleEffect_crcr (s : State) : (assembleEffect s).crcr = s.crcr := State.setPayload_crcr s _
@[simp] theorem assembleEffect_crcmode (s : State) : (assembleEffect s).crcmode = s.crcmode := State.setPayload_crcmode s _
@[simp] theorem assembleEffect_crcout (s : State) : (assembleEffect s).crcout = s.crcout := State.setPayload_crcout s _
@[simp] theorem assembleEffect_epoch (s : State) : (assembleEffect s).epoch = s.epoch := State.setPayload_epoch s _
@[simp] theorem assembleEffect_draws (s : State) : (assembleEffect s).draws = s.draws := State.setPayload_draws s _
@[simp] theorem assembleEffect_pending (s : State) : (assembleEffect s).pending = s.pending := State.setPayload_pending s _
@[simp] theorem assembleEffect_replies (s : State) : (assembleEffect s).replies = s.replies := State.setPayload_replies s _

@[simp] theorem descrEffect_raw (s : State) : (descrEffect s).raw = s.raw :=
  (State.setRs1_raw _ _).trans (State.setRs0_raw s _)
@[simp] theorem descrEffect_conv (s : State) : (descrEffect s).conv = s.conv :=
  (State.setRs1_conv _ _).trans (State.setRs0_conv s _)
@[simp] theorem descrEffect_dec (s : State) : (descrEffect s).dec = s.dec :=
  (State.setRs1_dec _ _).trans (State.setRs0_dec s _)
@[simp] theorem descrEffect_payload (s : State) : (descrEffect s).payload = s.payload :=
  (State.setRs1_payload _ _).trans (State.setRs0_payload s _)
@[simp] theorem descrEffect_err0 (s : State) : (descrEffect s).err0 = s.err0 :=
  (State.setRs1_err0 _ _).trans (State.setRs0_err0 s _)
@[simp] theorem descrEffect_err1 (s : State) : (descrEffect s).err1 = s.err1 :=
  (State.setRs1_err1 _ _).trans (State.setRs0_err1 s _)
@[simp] theorem descrEffect_status (s : State) : (descrEffect s).status = s.status :=
  (State.setRs1_status _ _).trans (State.setRs0_status s _)
@[simp] theorem descrEffect_crcr (s : State) : (descrEffect s).crcr = s.crcr :=
  (State.setRs1_crcr _ _).trans (State.setRs0_crcr s _)
@[simp] theorem descrEffect_crcmode (s : State) : (descrEffect s).crcmode = s.crcmode :=
  (State.setRs1_crcmode _ _).trans (State.setRs0_crcmode s _)
@[simp] theorem descrEffect_crcout (s : State) : (descrEffect s).crcout = s.crcout :=
  (State.setRs1_crcout _ _).trans (State.setRs0_crcout s _)
@[simp] theorem descrEffect_epoch (s : State) : (descrEffect s).epoch = s.epoch :=
  (State.setRs1_epoch _ _).trans (State.setRs0_epoch s _)
@[simp] theorem descrEffect_draws (s : State) : (descrEffect s).draws = s.draws :=
  (State.setRs1_draws _ _).trans (State.setRs0_draws s _)
@[simp] theorem descrEffect_pending (s : State) : (descrEffect s).pending = s.pending :=
  (State.setRs1_pending _ _).trans (State.setRs0_pending s _)
@[simp] theorem descrEffect_replies (s : State) : (descrEffect s).replies = s.replies :=
  (State.setRs1_replies _ _).trans (State.setRs0_replies s _)

@[simp] theorem State.setBlock_raw (s : State) (b : BitVec 1) (bs : List Byte) : (s.setBlock b bs).raw = s.raw := by
  unfold State.setBlock; split <;> rfl
@[simp] theorem State.setErr_raw (s : State) (b : BitVec 1) (v : Byte) : (s.setErr b v).raw = s.raw := by
  unfold State.setErr; split <;> rfl
@[simp] theorem rsdecEffect_raw (b : BitVec 1) (s : State) : (rsdecEffect b s).raw = s.raw := by
  simp [rsdecEffect]
@[simp] theorem State.setBlock_conv (s : State) (b : BitVec 1) (bs : List Byte) : (s.setBlock b bs).conv = s.conv := by
  unfold State.setBlock; split <;> rfl
@[simp] theorem State.setErr_conv (s : State) (b : BitVec 1) (v : Byte) : (s.setErr b v).conv = s.conv := by
  unfold State.setErr; split <;> rfl
@[simp] theorem rsdecEffect_conv (b : BitVec 1) (s : State) : (rsdecEffect b s).conv = s.conv := by
  simp [rsdecEffect]
@[simp] theorem State.setBlock_dec (s : State) (b : BitVec 1) (bs : List Byte) : (s.setBlock b bs).dec = s.dec := by
  unfold State.setBlock; split <;> rfl
@[simp] theorem State.setErr_dec (s : State) (b : BitVec 1) (v : Byte) : (s.setErr b v).dec = s.dec := by
  unfold State.setErr; split <;> rfl
@[simp] theorem rsdecEffect_dec (b : BitVec 1) (s : State) : (rsdecEffect b s).dec = s.dec := by
  simp [rsdecEffect]
@[simp] theorem State.setBlock_payload (s : State) (b : BitVec 1) (bs : List Byte) : (s.setBlock b bs).payload = s.payload := by
  unfold State.setBlock; split <;> rfl
@[simp] theorem State.setErr_payload (s : State) (b : BitVec 1) (v : Byte) : (s.setErr b v).payload = s.payload := by
  unfold State.setErr; split <;> rfl
@[simp] theorem rsdecEffect_payload (b : BitVec 1) (s : State) : (rsdecEffect b s).payload = s.payload := by
  simp [rsdecEffect]
@[simp] theorem State.setBlock_status (s : State) (b : BitVec 1) (bs : List Byte) : (s.setBlock b bs).status = s.status := by
  unfold State.setBlock; split <;> rfl
@[simp] theorem State.setErr_status (s : State) (b : BitVec 1) (v : Byte) : (s.setErr b v).status = s.status := by
  unfold State.setErr; split <;> rfl
@[simp] theorem rsdecEffect_status (b : BitVec 1) (s : State) : (rsdecEffect b s).status = s.status := by
  simp [rsdecEffect]
@[simp] theorem State.setBlock_crcr (s : State) (b : BitVec 1) (bs : List Byte) : (s.setBlock b bs).crcr = s.crcr := by
  unfold State.setBlock; split <;> rfl
@[simp] theorem State.setErr_crcr (s : State) (b : BitVec 1) (v : Byte) : (s.setErr b v).crcr = s.crcr := by
  unfold State.setErr; split <;> rfl
@[simp] theorem rsdecEffect_crcr (b : BitVec 1) (s : State) : (rsdecEffect b s).crcr = s.crcr := by
  simp [rsdecEffect]
@[simp] theorem State.setBlock_crcmode (s : State) (b : BitVec 1) (bs : List Byte) : (s.setBlock b bs).crcmode = s.crcmode := by
  unfold State.setBlock; split <;> rfl
@[simp] theorem State.setErr_crcmode (s : State) (b : BitVec 1) (v : Byte) : (s.setErr b v).crcmode = s.crcmode := by
  unfold State.setErr; split <;> rfl
@[simp] theorem rsdecEffect_crcmode (b : BitVec 1) (s : State) : (rsdecEffect b s).crcmode = s.crcmode := by
  simp [rsdecEffect]
@[simp] theorem State.setBlock_crcout (s : State) (b : BitVec 1) (bs : List Byte) : (s.setBlock b bs).crcout = s.crcout := by
  unfold State.setBlock; split <;> rfl
@[simp] theorem State.setErr_crcout (s : State) (b : BitVec 1) (v : Byte) : (s.setErr b v).crcout = s.crcout := by
  unfold State.setErr; split <;> rfl
@[simp] theorem rsdecEffect_crcout (b : BitVec 1) (s : State) : (rsdecEffect b s).crcout = s.crcout := by
  simp [rsdecEffect]
@[simp] theorem State.setBlock_epoch (s : State) (b : BitVec 1) (bs : List Byte) : (s.setBlock b bs).epoch = s.epoch := by
  unfold State.setBlock; split <;> rfl
@[simp] theorem State.setErr_epoch (s : State) (b : BitVec 1) (v : Byte) : (s.setErr b v).epoch = s.epoch := by
  unfold State.setErr; split <;> rfl
@[simp] theorem rsdecEffect_epoch (b : BitVec 1) (s : State) : (rsdecEffect b s).epoch = s.epoch := by
  simp [rsdecEffect]
@[simp] theorem State.setBlock_pending (s : State) (b : BitVec 1) (bs : List Byte) : (s.setBlock b bs).pending = s.pending := by
  unfold State.setBlock; split <;> rfl
@[simp] theorem State.setErr_pending (s : State) (b : BitVec 1) (v : Byte) : (s.setErr b v).pending = s.pending := by
  unfold State.setErr; split <;> rfl
@[simp] theorem rsdecEffect_pending (b : BitVec 1) (s : State) : (rsdecEffect b s).pending = s.pending := by
  simp [rsdecEffect]
@[simp] theorem State.setBlock_replies (s : State) (b : BitVec 1) (bs : List Byte) : (s.setBlock b bs).replies = s.replies := by
  unfold State.setBlock; split <;> rfl
@[simp] theorem State.setErr_replies (s : State) (b : BitVec 1) (v : Byte) : (s.setErr b v).replies = s.replies := by
  unfold State.setErr; split <;> rfl
@[simp] theorem rsdecEffect_replies (b : BitVec 1) (s : State) : (rsdecEffect b s).replies = s.replies := by
  simp [rsdecEffect]

@[simp] theorem crcinitEffect_raw (m : BitVec 1) (s : State) : (crcinitEffect m s).raw = s.raw := rfl
@[simp] theorem crcinitEffect_conv (m : BitVec 1) (s : State) : (crcinitEffect m s).conv = s.conv := rfl
@[simp] theorem crcinitEffect_dec (m : BitVec 1) (s : State) : (crcinitEffect m s).dec = s.dec := rfl
@[simp] theorem crcinitEffect_rs0 (m : BitVec 1) (s : State) : (crcinitEffect m s).rs0 = s.rs0 := rfl
@[simp] theorem crcinitEffect_rs1 (m : BitVec 1) (s : State) : (crcinitEffect m s).rs1 = s.rs1 := rfl
@[simp] theorem crcinitEffect_payload (m : BitVec 1) (s : State) : (crcinitEffect m s).payload = s.payload := rfl
@[simp] theorem crcinitEffect_err0 (m : BitVec 1) (s : State) : (crcinitEffect m s).err0 = s.err0 := rfl
@[simp] theorem crcinitEffect_err1 (m : BitVec 1) (s : State) : (crcinitEffect m s).err1 = s.err1 := rfl
@[simp] theorem crcinitEffect_status (m : BitVec 1) (s : State) : (crcinitEffect m s).status = s.status := rfl
@[simp] theorem crcinitEffect_crcout (m : BitVec 1) (s : State) : (crcinitEffect m s).crcout = s.crcout := rfl
@[simp] theorem crcinitEffect_epoch (m : BitVec 1) (s : State) : (crcinitEffect m s).epoch = s.epoch := rfl
@[simp] theorem crcinitEffect_draws (m : BitVec 1) (s : State) : (crcinitEffect m s).draws = s.draws := rfl
@[simp] theorem crcinitEffect_pending (m : BitVec 1) (s : State) : (crcinitEffect m s).pending = s.pending := rfl
@[simp] theorem crcinitEffect_replies (m : BitVec 1) (s : State) : (crcinitEffect m s).replies = s.replies := rfl

@[simp] theorem crcbyteEffect_raw (imm8 : BitVec 8) (s : State) : (crcbyteEffect imm8 s).raw = s.raw := rfl
@[simp] theorem crcbyteEffect_conv (imm8 : BitVec 8) (s : State) : (crcbyteEffect imm8 s).conv = s.conv := rfl
@[simp] theorem crcbyteEffect_dec (imm8 : BitVec 8) (s : State) : (crcbyteEffect imm8 s).dec = s.dec := rfl
@[simp] theorem crcbyteEffect_rs0 (imm8 : BitVec 8) (s : State) : (crcbyteEffect imm8 s).rs0 = s.rs0 := rfl
@[simp] theorem crcbyteEffect_rs1 (imm8 : BitVec 8) (s : State) : (crcbyteEffect imm8 s).rs1 = s.rs1 := rfl
@[simp] theorem crcbyteEffect_payload (imm8 : BitVec 8) (s : State) : (crcbyteEffect imm8 s).payload = s.payload := rfl
@[simp] theorem crcbyteEffect_err0 (imm8 : BitVec 8) (s : State) : (crcbyteEffect imm8 s).err0 = s.err0 := rfl
@[simp] theorem crcbyteEffect_err1 (imm8 : BitVec 8) (s : State) : (crcbyteEffect imm8 s).err1 = s.err1 := rfl
@[simp] theorem crcbyteEffect_status (imm8 : BitVec 8) (s : State) : (crcbyteEffect imm8 s).status = s.status := rfl
@[simp] theorem crcbyteEffect_crcmode (imm8 : BitVec 8) (s : State) : (crcbyteEffect imm8 s).crcmode = s.crcmode := rfl
@[simp] theorem crcbyteEffect_crcout (imm8 : BitVec 8) (s : State) : (crcbyteEffect imm8 s).crcout = s.crcout := rfl
@[simp] theorem crcbyteEffect_epoch (imm8 : BitVec 8) (s : State) : (crcbyteEffect imm8 s).epoch = s.epoch := rfl
@[simp] theorem crcbyteEffect_draws (imm8 : BitVec 8) (s : State) : (crcbyteEffect imm8 s).draws = s.draws := rfl
@[simp] theorem crcbyteEffect_pending (imm8 : BitVec 8) (s : State) : (crcbyteEffect imm8 s).pending = s.pending := rfl
@[simp] theorem crcbyteEffect_replies (imm8 : BitVec 8) (s : State) : (crcbyteEffect imm8 s).replies = s.replies := rfl

@[simp] theorem crcfinEffect_raw (s : State) : (crcfinEffect s).raw = s.raw := rfl
@[simp] theorem crcfinEffect_conv (s : State) : (crcfinEffect s).conv = s.conv := rfl
@[simp] theorem crcfinEffect_dec (s : State) : (crcfinEffect s).dec = s.dec := rfl
@[simp] theorem crcfinEffect_rs0 (s : State) : (crcfinEffect s).rs0 = s.rs0 := rfl
@[simp] theorem crcfinEffect_rs1 (s : State) : (crcfinEffect s).rs1 = s.rs1 := rfl
@[simp] theorem crcfinEffect_payload (s : State) : (crcfinEffect s).payload = s.payload := rfl
@[simp] theorem crcfinEffect_err0 (s : State) : (crcfinEffect s).err0 = s.err0 := rfl
@[simp] theorem crcfinEffect_err1 (s : State) : (crcfinEffect s).err1 = s.err1 := rfl
@[simp] theorem crcfinEffect_status (s : State) : (crcfinEffect s).status = s.status := rfl
@[simp] theorem crcfinEffect_crcr (s : State) : (crcfinEffect s).crcr = s.crcr := rfl
@[simp] theorem crcfinEffect_crcmode (s : State) : (crcfinEffect s).crcmode = s.crcmode := rfl
@[simp] theorem crcfinEffect_epoch (s : State) : (crcfinEffect s).epoch = s.epoch := rfl
@[simp] theorem crcfinEffect_draws (s : State) : (crcfinEffect s).draws = s.draws := rfl
@[simp] theorem crcfinEffect_pending (s : State) : (crcfinEffect s).pending = s.pending := rfl
@[simp] theorem crcfinEffect_replies (s : State) : (crcfinEffect s).replies = s.replies := rfl

theorem decodeEffect_eq (s : State) : decodeEffect s =
    assembleEffect (rsdecEffect 1 (rsdecEffect 0 (descrEffect (viterbiEffect (deintEffect s))))) := rfl

/-- The rule of a command leaves STATUS to the wrapper (R81). -/
theorem status_effectOf (i : Instr) (s : State) : (effectOf i s).status = s.status := by
  cases i <;> simp [effectOf, decodeEffect_eq]

/-- The rule of a command leaves the queue, the replies and the epoch alone (R14). -/
theorem host_effectOf (i : Instr) (s : State) :
    (effectOf i s).pending = s.pending ∧ (effectOf i s).replies = s.replies ∧ (effectOf i s).epoch = s.epoch := by
  cases i <;> simp [effectOf, decodeEffect_eq]

/-! ### Elements under the rules -/

theorem element_deintEffect_other (s : State) {sp : Space} (h : sp ≠ .conv) (i : Nat) :
    (deintEffect s).element sp i = s.element sp i := State.element_setConv_other s _ h i

theorem element_viterbiEffect_other (s : State) {sp : Space} (h : sp ≠ .dec) (i : Nat) :
    (viterbiEffect s).element sp i = s.element sp i := State.element_setDec_other s _ h i

theorem element_assembleEffect_other (s : State) {sp : Space} (h : sp ≠ .payload) (i : Nat) :
    (assembleEffect s).element sp i = s.element sp i := State.element_setPayload_other s _ h i

theorem element_descrEffect_other (s : State) {sp : Space} (h0 : sp ≠ .rs0) (h1 : sp ≠ .rs1) (i : Nat) :
    (descrEffect s).element sp i = s.element sp i :=
  (State.element_setRs1_other _ _ h1 i).trans (State.element_setRs0_other s _ h0 i)

theorem State.element_setErr_other (s : State) (b : BitVec 1) (v : Byte) {sp : Space} (h : sp ≠ .err) (i : Nat) :
    (s.setErr b v).element sp i = s.element sp i := by
  unfold State.setErr
  split <;> cases sp <;> first | rfl | exact absurd rfl h

theorem State.element_setBlock_other (s : State) (b : BitVec 1) (bs : List Byte) {sp : Space} (h : sp ≠ blockSpace b)
    (i : Nat) : (s.setBlock b bs).element sp i = s.element sp i := by
  rcases bit_cases b with rfl | rfl
  · exact State.element_setRs0_other s bs h i
  · exact State.element_setRs1_other s bs h i

/-- RSDEC b leaves every space but RS[b] and ERR alone (R130). -/
theorem element_rsdecEffect_other (b : BitVec 1) (s : State) {sp : Space} (hb : sp ≠ blockSpace b) (he : sp ≠ .err)
    (i : Nat) : (rsdecEffect b s).element sp i = s.element sp i := by
  rw [rsdecEffect]
  simp only [State.element_useDraws]
  rw [State.element_setErr_other _ _ _ he, State.element_setBlock_other _ _ _ hb]

/-- A CRC command leaves every element alone (R181). -/
theorem element_crcEffect {i : Instr} (h : isCrc i = true) (s : State) (sp : Space) (k : Nat) :
    (effectOf i s).element sp k = s.element sp k := by
  cases i <;> first | (simp [isCrc] at h; done) | (cases sp <;> rfl)

/-- What a one-bit ERR value can be after RSDEC (R30). -/
theorem errLegal_count {n : Nat} (h : n ≤ 16) : errLegal (BitVec.ofNat 8 n) = true := by
  have : n % 256 ≤ 16 := by omega
  simp [errLegal, this]

theorem errLegal_sentinel : errLegal 0xFF = true := by decide

end Sys2Proof.Machine
end

