-- ==== Sys2Proof/Laws/PerInstr.lean ====
section
/-! SUPPORT. Facts about each command as syntax, one lemma per constructor of Instr. -/

namespace Sys2Proof.Laws.EncodedFields

/-- The word of a command has a legal OP (R72), a zero RSV field (R70) and zero must-be-zero ARG bits (R73). -/
def Statement (i : Instr) : Prop :=
  WellFormed.opcode (encode i) = true ∧ WellFormed.reserved (encode i) = true ∧ WellFormed.argument (encode i) = true

theorem deint : Statement .deint := by unfold Statement; decide
theorem viterbi : Statement .viterbi := by unfold Statement; decide
theorem descr : Statement .descr := by unfold Statement; decide
theorem rsdec (b : BitVec 1) : Statement (.rsdec b) := by unfold Statement; revert b; decide
theorem assemble : Statement .assemble := by unfold Statement; decide
theorem decode : Statement .decode := by unfold Statement; decide
theorem crcinit (m : BitVec 1) : Statement (.crcinit m) := by unfold Statement; revert m; decide
theorem crcbyte (imm8 : BitVec 8) : Statement (.crcbyte imm8) := by unfold Statement; revert imm8; decide
theorem crcfin : Statement .crcfin := by unfold Statement; decide

end Sys2Proof.Laws.EncodedFields
end

