-- ==== Sys2Proof/Tests/Slice0.lean ====
section
/-! SUPPORT. Tests: the ill-formed words and accesses, every command's word written out from R72, one small case or two
for each command with its expected result from the spec (95_test_vectors.md or a rule's own example), and for every
statement with hypotheses a concrete case that meets them. -/

namespace Sys2Proof.Tests

open Sys2Proof.Machine

/-! ### WellFormed: each check refuses an ill-formed term -/

theorem test_illFormed_opcode : WellFormed.opcode 0x7000 = false := by decide
theorem test_illFormed_reserved : WellFormed.reserved 0x1100 = false := by decide
theorem test_illFormed_argument :
    WellFormed.argument 0x1001 = false ∧ WellFormed.argument 0x4002 = false ∧ WellFormed.argument 0x8002 = false ∧
    WellFormed.argument 0xA001 = false := by decide
theorem test_illFormed_word : WellFormed.word 0x9100 = false ∧ WellFormed.word 0x90FF = true := by decide
theorem test_illFormed_readAccess :
    WellFormed.readAccess 7 0 = false ∧ WellFormed.readAccess 0 5200 = false ∧ WellFormed.readAccess 6 2 = false := by
  decide
theorem test_illFormed_writeAccess :
    WellFormed.writeAccess 5 0 = false ∧ WellFormed.writeAccess 6 0 = false ∧ WellFormed.writeAccess 3 160 = false := by
  decide
theorem test_illFormed_action :
    WellFormed.action (.issue 0x0000) = false ∧ WellFormed.action (.memWrite 3 160 0) = false := by decide

/-! ### Decode: the words of R72, bit by bit, and the verdicts of V-ENC-1 -/

theorem test_decode_deint : decodeWord 0b0001000000000000 = .ok .deint := by decide
theorem test_decode_viterbi : decodeWord 0b0010000000000000 = .ok .viterbi := by decide
theorem test_decode_descr : decodeWord 0b0011000000000000 = .ok .descr := by decide
theorem test_decode_rsdec :
    decodeWord 0b0100000000000000 = .ok (.rsdec 0) ∧ decodeWord 0b0100000000000001 = .ok (.rsdec 1) := by decide
theorem test_decode_assemble : decodeWord 0b0101000000000000 = .ok .assemble := by decide
theorem test_decode_decode : decodeWord 0b0110000000000000 = .ok .decode := by decide
theorem test_decode_crcinit :
    decodeWord 0b1000000000000000 = .ok (.crcinit 0) ∧ decodeWord 0b1000000000000001 = .ok (.crcinit 1) := by decide
theorem test_decode_crcbyte :
    decodeWord 0b1001000000110001 = .ok (.crcbyte 0x31) ∧ decodeWord 0b1001000011111111 = .ok (.crcbyte 0xFF) := by
  decide
theorem test_decode_crcfin : decodeWord 0b1010000000000000 = .ok .crcfin := by decide
theorem test_decode_illegalOpcode :
    decodeWord 0x0000 = .error .illegalOpcode ∧ decodeWord 0x7F00 = .error .illegalOpcode ∧
    decodeWord 0xB000 = .error .illegalOpcode ∧ decodeWord 0xFFFF = .error .illegalOpcode := by decide
theorem test_decode_reservedField :
    decodeWord 0x1001 = .error .reservedField ∧ decodeWord 0x1100 = .error .reservedField ∧
    decodeWord 0x4002 = .error .reservedField ∧ decodeWord 0x4100 = .error .reservedField ∧
    decodeWord 0x8002 = .error .reservedField ∧ decodeWord 0x9100 = .error .reservedField ∧
    decodeWord 0xA001 = .error .reservedField := by decide
theorem test_decodeTableWord : decodeTableWord 16 0x4001 = some (.rsdec 1) ∧ decodeTableWord 16 0x7000 = none := by decide

/-! ### Commands -/

/-- The state a step answers, for looking at it. -/
def after (o : Host.Outcome State Fault Refusal) : State :=
  match o with
  | .next t => t
  | .fault _ => State.reset
  | .refused _ => State.reset

/-- The model's first step from reset on a table word. -/
def first (w : Nat) : State := after (step (State.reset.withFetchWord 16 w))

/-- R90's own example: CONV[0] = RAW[1] and CONV[1] = 255 - RAW[81]; here RAW[1] = 1, RAW[81] = 81. -/
theorem test_deint :
    let t := after (exec .deint { State.reset with raw := [(1, 1), (81, 81)] })
    t.element .conv 0 = 1 ∧ t.element .conv 1 = 174 := by decide +kernel

/-- V-DEINT-1: the first wrap leads from offset 5121 to offset 2; R90: offsets stay below 5200. -/
theorem test_deint_wrap : nextOffset 5121 = 2 ∧ nextOffset 5119 = 5199 ∧ src 5131 = 4959 ∧ src 65 = 2 := by decide

/-- V-VIT-2: the metrics after two steps on the soft bits 10, 200, 30, 40. -/
theorem test_viterbi_metrics :
    ((acsRun params [(10, 200), (30, 40)] initialMetrics []).1).take 4 = [280, 650, 565, 545] := by decide +kernel

/-- V-VIT-3: the first 32 code symbols of the block 03 0A ... -/
theorem test_encoder :
    (enc params (serialise [0x03, 0x0A])).map Bool.toNat =
      [0,0,0,0, 0,0,0,0, 0,0,0,0, 1,1,0,1, 0,1,0,0, 1,1,0,1, 0,1,0,1, 0,0,0,1] := by decide +kernel

/-- R120's own example: DEC all zero gives RS[0][0] = FF, RS[1][0] = 48, RS[0][1] = 0E. -/
theorem test_descr :
    let t := after (exec .descr { State.reset with dec := Memory.ofBytes (List.replicate 320 0) })
    t.element .rs0 0 = 0xFF ∧ t.element .rs1 0 = 0x48 ∧ t.element .rs0 1 = 0x0E := by decide +kernel

/-- V-DESCR-1: the sequence wraps at i = 255: RS[1][127] = FF, RS[0][128] = 48. -/
theorem test_descr_wrap :
    let t := after (exec .descr { State.reset with dec := Memory.ofBytes (List.replicate 320 0) })
    t.element .rs1 127 = 0xFF ∧ t.element .rs0 128 = 0x48 := by decide +kernel

/-- Field checks of 95_test_vectors.md 2.4. -/
theorem test_field :
    gmul params 0x80 0x02 = 0x87 ∧ gmul params 0x02 0xAD = 0xDD ∧ gexp params 11 = 0xAD ∧ ginv params 0x02 = 0xC3 := by
  decide +kernel

/-- R135: the first and the last generator root. -/
theorem test_roots : root params 0 = 0x15 ∧ root params 31 = 0x1E := by decide +kernel

/-- V-RS-4: Berlekamp-Massey on the syndromes of two errors gives LEN = 2 and 01 ED 9A; the syndromes are those of
the values 01 at power 19 and A7 at power 154, the first eight of which the vector lists. -/
theorem test_berlekampMassey :
    let syn := (List.range 32).map fun i =>
      gmul params 0x01 (bpow params (19 * (112 + i))) ^^^ gmul params 0xA7 (bpow params (154 * (112 + i)))
    syn.take 8 = [0xF2, 0x99, 0xB7, 0x3F, 0x4E, 0x83, 0x00, 0xEC] ∧
    (berlekampMassey params syn).len = 2 ∧ (berlekampMassey params syn).lam.take 3 = [0x01, 0xED, 0x9A] := by
  decide +kernel

/-- V-RS-4: the error values at the two powers. -/
theorem test_errorValue :
    let lam : List Byte := [0x01, 0xED, 0x9A] ++ List.replicate 30 0
    let omg : List Byte := [0xF2, 0x62] ++ List.replicate 30 0
    errorValue params lam omg 19 = some 0x01 ∧ errorValue params lam omg 154 = some 0xA7 := by decide +kernel

/-- A state whose RS[0] holds a given word. -/
def withBlock (r : List Byte) : State := { State.reset with rs0 := Memory.ofBytes r }

/-- V-RS-1: the all-zero block is a codeword: count 0. -/
theorem test_rsdec_zero : (after (exec (.rsdec 0) (withBlock (List.replicate 160 0)))).err0 = 0 := by decide +kernel

/-- A word with 20 zero syndromes and a non-zero one after them has LEN = 21 > 16 (R140, R141): the sentinel. It is the
product of the first 20 factors of g, shifted up. -/
theorem test_rsdec_sentinel :
    rsDecode params ([0x01, 0xE7, 0x3F, 0x76, 0x14, 0x66, 0x33, 0x2D, 0xBE, 0x53, 0xFC, 0x40, 0x3D, 0x80, 0x32, 0x99,
      0x4A, 0xB1, 0xEC, 0xE2, 0xA7] ++ List.replicate 139 0) = .uncorrectable := by decide +kernel

/-- V-ASM-1: RS0 all 11 and RS1 all 22 interleave. -/
theorem test_assemble :
    let t := after (exec .assemble { State.reset with
      rs0 := Memory.ofBytes (List.replicate 160 0x11), rs1 := Memory.ofBytes (List.replicate 160 0x22) })
    t.element .payload 0 = 0x11 ∧ t.element .payload 255 = 0x22 := by decide +kernel

/-- P5: DECODE as the first command after reset completes, with STATUS = 02 and the CRC registers untouched. -/
theorem test_decode_runs : (first 0x6000).status = 0x02 ∧ (first 0x6000).crcr = 0 := by decide +kernel

/-- R171's own example. -/
theorem test_crcinit : (first 0x8001).crcmode = 1 ∧ (first 0x8001).crcr = 0xFFFFFFFF := by decide +kernel

/-- R172's own example: after CRCINIT 16, CRCBYTE 0x31 leaves 0x832B. -/
theorem test_crcbyte_16 : (first 0x9031).crcr = 0x0000832B := by decide +kernel

/-- V-CRC-4: after CRCINIT 32, CRCBYTE 0x31 leaves 0x1208C43E. -/
theorem test_crcbyte_32 :
    (after (exec (.crcbyte 0x31) { State.reset with crcmode := 1, crcr := 0xFFFFFFFF })).crcr = 0x1208C43E := by
  decide +kernel

/-- R172's own example: CRCFIN gives rev_16(0x832B) = 0xD4C1. -/
theorem test_crcfin : (after (exec .crcfin { State.reset with crcr := 0x832B })).crcout = 0x0000D4C1 := by decide +kernel

/-! ### Host actions and faults (P7) -/

/-- P7: a write to RS0[160] after a completed command: STATUS = 34. -/
theorem test_badAccess : (memWrite 3 160 0 { State.reset with status := 0x02 }).status = 0x34 := by decide
/-- P7: word 0x7000: STATUS = 14. -/
theorem test_illegalOpcode : (first 0x7000).status = 0x14 := by decide +kernel
/-- P7: word 0x4002: STATUS = 24. -/
theorem test_reservedField : (first 0x4002).status = 0x24 := by decide +kernel
/-- P7: word 0x0000 while FAULT = 1: STATUS stays 24. -/
theorem test_firstCauseKept :
    (after (issue 0x0000 { State.reset with status := 0x24 })).status = 0x24 := by decide +kernel
/-- P7: a completed command leaves STATUS = 02. -/
theorem test_done : (first 0x8001).status = 0x02 := by decide +kernel

/-! ### Witnesses: concrete cases that meet the hypotheses of the statements -/

/-- The usual hypothesis FAULT = 0, and the good state after reset. -/
theorem witness_notFaulted : State.reset.faulted = false ∧ State.reset.busy = false := by decide

theorem witness_decodeChecksInOrder :
    WellFormed.opcode 0x7F00 = false ∧ (WellFormed.opcode 0x1100 = true ∧ WellFormed.reserved 0x1100 = false) ∧
    (WellFormed.opcode 0x4002 = true ∧ WellFormed.argument 0x4002 = false) ∧ WellFormed.word 0x90FF = true := by decide

/-- A state in which the host is about to issue DEINT. -/
def issuing : State := { State.reset with pending := [.issue 0x1000, .reset] }

theorem witness_stepRunsDecodedCommand :
    issuing.pending = .issue 0x1000 :: [.reset] ∧ issuing.busy = false ∧ decodeWord 0x1000 = .ok .deint ∧
    State.reset.pending = [] := ⟨rfl, by decide, by decide, rfl⟩

theorem witness_stepPerformsHostActions :
    ({ State.reset with pending := [.reset] } : State).pending = .reset :: [] ∧
    ({ State.reset with pending := [.regRead .crcout] } : State).pending = .regRead .crcout :: [] := ⟨rfl, rfl⟩

/-- A state found busy (no step leaves one). -/
def busyState : State := { State.reset with status := 0x01, pending := [.memRead 0 0] }

theorem witness_busyAccess :
    busyState.pending = .memRead 0 0 :: [] ∧ busyState.busy = true ∧ busyState.faulted = false ∧
    needsIdle (.memRead 0 0) = true ∧ needsIdle (.issue 0x1000) = true ∧ needsIdle (.memWrite 6 1 0) = true :=
  ⟨rfl, by decide, by decide, rfl, rfl, rfl⟩

/-- A state in the fault state (CAUSE = 3), with an element of RAW written. -/
def faultState : State :=
  { State.reset with status := 0x34, raw := [(0, 1), (5199, 2)], pending := [.regRead .status] }

theorem witness_invariant : faultState.Inv :=
  ⟨by decide, by decide, by decide, by decide, fun _ => by decide, by decide⟩

theorem witness_memRead :
    5199 < Space.raw.len ∧ 1 < Space.err.len ∧ WellFormed.readAccess 0 5200 = false ∧
    WellFormed.readAccess 6 2 = false ∧ WellFormed.readAccess 7 0 = false ∧ State.reset.faulted = false := by decide

theorem witness_memWrite :
    faultState.faulted = true ∧ State.reset.faulted = false ∧ WellFormed.writeAccess 4 160 = false ∧
    WellFormed.writeAccess 5 0 = false ∧ WellFormed.writeAccess 6 1 = false ∧
    (159 < Space.rs1.len ∧ Space.rs1.hostWritable = true) := by decide

theorem witness_reservedOpcode :
    (opField 0x0000).toNat ∈ [0x0, 0x7, 0xB, 0xC, 0xD, 0xE, 0xF] ∧
    (opField 0x7F00).toNat ∈ [0x0, 0x7, 0xB, 0xC, 0xD, 0xE, 0xF] ∧
    (opField 0xFFFF).toNat ∈ [0x0, 0x7, 0xB, 0xC, 0xD, 0xE, 0xF] := by decide

theorem witness_reservedField :
    ((opField 0x9100).toNat ∉ [0x0, 0x7, 0xB, 0xC, 0xD, 0xE, 0xF] ∧ rsvField 0x9100 ≠ 0) ∧
    ((opField 0xA001).toNat ∈ [0x1, 0x2, 0x3, 0x5, 0x6, 0xA] ∧ argField 0xA001 ≠ 0) ∧
    ((opField 0x8002).toNat ∈ [0x4, 0x8] ∧ (argField 0x8002).extractLsb' 1 7 ≠ 0) := by decide

theorem witness_faultState :
    faultState.faulted = true ∧ faultState.pending.head? ≠ some .reset ∧ ∃ t, step faultState = .next t :=
  ⟨by decide, by decide, _, rfl⟩

theorem witness_rawAndOutputs :
    (∃ t, exec .assemble State.reset = .next t) ∧ ∃ t, perform (.memWrite 5 0 0x12) State.reset = .next t :=
  ⟨⟨_, rfl⟩, _, rfl⟩

/-- Two frames that differ in the sync column (offset 0) and at offset 5199 only. -/
theorem witness_deintIgnores :
    let s₁ : State := { State.reset with raw := [(0, 1), (5199, 1)] }
    let s₂ : State := { State.reset with raw := [(0, 2), (5199, 3)] }
    s₁.faulted = false ∧ s₂.faulted = false ∧
    ∀ off, off < 5200 → off % 80 ≠ 0 → off ∉ [5039, 5119, 5199] → s₁.element .raw off = s₂.element .raw off := by
  refine ⟨by decide, by decide, fun off _ h0 h => ?_⟩
  have h₁ : ¬ 0 = off := by omega
  have h₂ : ¬ 5199 = off := by
    simp only [List.mem_cons, not_or] at h
    omega
  simp [State.element, readCell, Memory.find, h₁, h₂]

/-- Any frame is the interleaved image of the stream read from it. -/
theorem witness_deinterleaveInverts (s : State) :
    ∃ stream : Nat → Byte, ∀ k, k < 5132 →
      s.element .raw (src k) = if k % 2 = 1 then 255 - stream k else stream k := by
  refine ⟨fun k => if k % 2 = 1 then 255 - s.element .raw (src k) else s.element .raw (src k), fun k _ => ?_⟩
  have h : ∀ x : Byte, 255 - (255 - x) = x := by decide
  by_cases hk : k % 2 = 1
  · simp only [hk, if_true, h]
  · simp only [hk, if_false]

/-- A zero input sequence emits zero symbols. -/
theorem enc_zero (n : Nat) : enc params (List.replicate n false) = List.replicate (2 * n) false := by
  unfold enc
  induction n with
  | zero => rfl
  | succ n ih =>
    have h : encoderStep params 0 false = ((false, false), 0) := by decide
    rw [List.replicate_succ, convEncode, h, ih, show 2 * (n + 1) = 2 * n + 1 + 1 by omega]
    rfl

theorem getD_replicate {α : Type} (a : α) {n k : Nat} (h : k < n) {b : α} : (List.replicate n a).getD k b = a := by
  rw [List.getD_eq_getElem?_getD, List.getElem?_replicate, if_pos h]
  rfl

/-- The noise-free image of the zero sequence: a sequence of U, whose symbols CONV holds. -/
theorem witness_viterbi :
    let s : State := { State.reset with conv := Memory.ofBytes (List.replicate 5132 0) }
    s.faulted = false ∧ InputSequence (List.replicate 2566 false) ∧
    ∀ k, k < 5132 → s.element .conv k = softImage ((enc params (List.replicate 2566 false)).getD k false) := by
  refine ⟨by decide, ⟨List.length_replicate, fun t _ h => getD_replicate false h⟩, fun k hk => ?_⟩
  rw [enc_zero, getD_replicate false hk]
  exact (readCell_ofBytes _ _ _ (by rwa [List.length_replicate])).trans (getD_replicate 0 hk)

/-- The zero block with its tail is that zero sequence. -/
theorem witness_viterbiBlock :
    (List.replicate 320 (0 : Byte)).length = 320 ∧ withTail (List.replicate 320 0) = List.replicate 2566 false := by
  decide +kernel

theorem witness_pathMetrics :
    ([] : List (Byte × Byte)).length ≤ 2566 ∧ 2 ^ 24 ∈ (acsRun params [] initialMetrics []).1 := by decide

/-- A buffer written with a list of bytes holds them. -/
theorem witness_descrInverts :
    let s : State := { State.reset with
      dec := Memory.ofBytes (scrambleMerge params (List.replicate 160 1) (List.replicate 160 2)) }
    s.faulted = false ∧ (List.replicate 160 (1 : Byte)).length = 160 ∧ (List.replicate 160 (2 : Byte)).length = 160 ∧
    ∀ i, i < 320 → s.element .dec i =
      (scrambleMerge params (List.replicate 160 1) (List.replicate 160 2)).getD i 0 :=
  ⟨by decide, List.length_replicate, List.length_replicate, fun i hi => readCell_ofBytes _ _ _ (by simpa [scrambleMerge] using hi)⟩

theorem witness_field : (0x02 : Byte) ≠ 0 ∧ (0xFF : Byte) ≠ 0 := by decide

/-- V-RS-8: g(x) x^127 is a codeword of weight 33. -/
theorem witness_codewords :
    let c₁ : List Byte := List.replicate 160 0
    let c₂ : List Byte := [0x01, 0x5B, 0x7F, 0x56, 0x10, 0x1E, 0x0D, 0xEB, 0x61, 0xA5, 0x08, 0x2A, 0x36, 0x56, 0xAB,
      0x20, 0x71, 0x20, 0xAB, 0x56, 0x36, 0x2A, 0x08, 0xA5, 0x61, 0xEB, 0x0D, 0x1E, 0x10, 0x56, 0x7F, 0x5B, 0x01] ++
      List.replicate 127 0
    IsCodeword params c₁ ∧ IsCodeword params c₂ ∧ c₁ ≠ c₂ := by
  refine ⟨⟨List.length_replicate, fun i _ => evalWord_zero 160 _⟩, ?_, by decide⟩
  unfold IsCodeword
  decide +kernel

theorem witness_encoder :
    (List.replicate 128 (0 : Byte)).length = 128 ∧ IsCodeword params (List.replicate 160 0) ∧
    (List.replicate 160 (0 : Byte)).take 128 = List.replicate 128 0 :=
  ⟨List.length_replicate, ⟨List.length_replicate, fun i _ => evalWord_zero 160 _⟩, by decide⟩

/-- The block of a state is the word it was given. -/
theorem block_withBlock {r : List Byte} (h : r.length = 160) : (withBlock r).block 0 = r := by
  apply List.ext_getElem (by simp [h])
  intro i h₁ h₂
  simp only [State.block, State.bytes, blockSpace, if_true, List.getElem_map, List.getElem_range]
  show readCell _ _ (Memory.ofBytes r) i = r[i]
  rw [readCell_ofBytes _ _ _ h₂]
  simp [h₂]

/-- A block that is a codeword, within 16 of itself, with all syndromes zero. -/
theorem witness_rsdec :
    let s := withBlock (List.replicate 160 0)
    s.faulted = false ∧ (∀ i, i < 32 → evalWord params (s.block 0) (root params i) = 0) ∧
    IsCodeword params (s.block 0) ∧ wordDistance (s.block 0) (s.block 0) ≤ 16 := by
  have h : (withBlock (List.replicate 160 0)).block 0 = List.replicate 160 0 := block_withBlock List.length_replicate
  have hz : IsCodeword params (List.replicate 160 0) := ⟨List.length_replicate, fun i _ => evalWord_zero 160 _⟩
  refine ⟨by decide, ?_, ?_, ?_⟩
  · intro i hi
    rw [h]
    exact hz.2 i hi
  · rw [h]
    exact hz
  · rw [h]
    decide

theorem witness_berlekampMassey : (List.replicate 32 (1 : Byte)).length = 32 := by decide

/-- Two states that differ outside RS[0] and agree on it, and two that agree on RAW. -/
theorem witness_agreeingStates :
    let s₁ := State.reset
    let s₂ : State := { State.reset with crcr := 5, err1 := 3, dec := [(0, 7)] }
    s₁.faulted = false ∧ s₂.faulted = false ∧ s₁.block 0 = s₂.block 0 ∧
    ∀ off, off < 5200 → s₁.element .raw off = s₂.element .raw off := ⟨by decide, by decide, rfl, fun _ _ => rfl⟩

theorem length_forwardFrame (P : Params) (payload : List Byte) (sync : Byte) :
    (forwardFrame P payload sync).length = 5200 := by simp [forwardFrame, interleave]

/-- A state whose RAW holds the frame of a payload. -/
def withFrame (payload : List Byte) : State :=
  { State.reset with raw := Memory.ofBytes (forwardFrame params payload 0xA5) }

theorem element_withFrame (payload : List Byte) {off : Nat} (h : off < 5200) :
    (withFrame payload).element .raw off = (forwardFrame params payload 0xA5).getD off 0 := by
  have hlen : off < (forwardFrame params payload 0xA5).length := by rw [length_forwardFrame]; exact h
  have hraw : (withFrame payload).raw = Memory.ofBytes (forwardFrame params payload 0xA5) := by rw [withFrame]
  exact State.element_raw_of_eq hraw hlen

theorem witness_forwardFrame :
    (withFrame (List.replicate 256 7)).faulted = false ∧ (List.replicate 256 (7 : Byte)).length = 256 ∧
    ∀ off, off < 5200 → (withFrame (List.replicate 256 7)).element .raw off =
      (forwardFrame params (List.replicate 256 7) 0xA5).getD off 0 :=
  ⟨rfl, List.length_replicate, fun _ h => element_withFrame _ h⟩

theorem witness_crcAndPipeline :
    isCrc (.crcbyte 0xFF) = true ∧ isCrc .decode = false ∧ (∃ t, exec (.crcbyte 0xFF) State.reset = .next t) ∧
    ∃ t, exec .decode State.reset = .next t := ⟨rfl, rfl, ⟨_, rfl⟩, _, rfl⟩

end Sys2Proof.Tests
end

section
/-! PROOFS. What each rule of the pipeline reads, said once as a comparison of two states that agree on the space it
reads; and from these that DECODE is a function of RAW (O41). -/

namespace Sys2Proof.Machine

/-! ### Spaces, blocks and counts under the operations that do not write them -/

/-- Two states have the same bytes in a space exactly when they agree on its elements. -/
theorem State.bytes_eq_iff {s t : State} {sp : Space} :
    s.bytes sp = t.bytes sp ↔ ∀ i, i < sp.len → s.element sp i = t.element sp i := by
  refine ⟨fun h i hi => ?_, State.bytes_congr⟩
  rw [← getD_bytes s sp hi, h, getD_bytes t sp hi]

@[simp] theorem bytes_beginCommand (s : State) (sp : Space) : (beginCommand s).bytes sp = s.bytes sp :=
  State.bytes_congr fun i _ => element_beginCommand s sp i

@[simp] theorem bytes_endCommand (s : State) (sp : Space) : (endCommand s).bytes sp = s.bytes sp :=
  State.bytes_congr fun i _ => element_endCommand s sp i

@[simp] theorem block_endCommand (s : State) (b : BitVec 1) : (endCommand s).block b = s.block b :=
  bytes_endCommand s (blockSpace b)

@[simp] theorem errOf_endCommand (s : State) (b : BitVec 1) : (endCommand s).errOf b = s.errOf b := by
  simp [endCommand, State.errOf]

theorem blockSpace_injective : ∀ b c : BitVec 1, blockSpace b = blockSpace c → b = c := by decide

/-- RS[b] is none of the other spaces (R23). -/
theorem blockSpace_ne_of {sp : Space} (h0 : sp ≠ .rs0) (h1 : sp ≠ .rs1) (b : BitVec 1) : blockSpace b ≠ sp := by
  rcases bit_cases b with rfl | rfl
  · exact h0.symm
  · exact h1.symm

@[simp] theorem len_blockSpace : ∀ b : BitVec 1, (blockSpace b).len = 160 := by decide

@[simp] theorem block_assembleEffect (s : State) (b : BitVec 1) : (assembleEffect s).block b = s.block b :=
  State.bytes_congr fun i _ => element_assembleEffect_other s (blockSpace_ne_of (by decide) (by decide) b) i

@[simp] theorem errOf_assembleEffect (s : State) (b : BitVec 1) : (assembleEffect s).errOf b = s.errOf b := by
  simp [State.errOf]

/-- RSDEC c leaves the other block alone (R130). -/
theorem block_rsdecEffect_other {b c : BitVec 1} (h : b ≠ c) (s : State) : (rsdecEffect c s).block b = s.block b :=
  State.bytes_congr fun i _ => element_rsdecEffect_other c s (fun e => h (blockSpace_injective b c e))
    (blockSpace_ne_of (by decide) (by decide) b) i

@[simp] theorem State.errOf_useDraws (s : State) (n : Nat) (b : BitVec 1) : (s.useDraws n).errOf b = s.errOf b := rfl

@[simp] theorem State.errOf_setBlock (s : State) (c b : BitVec 1) (bs : List Byte) :
    (s.setBlock c bs).errOf b = s.errOf b := by
  unfold State.setBlock
  split <;> rfl

@[simp] theorem State.errOf_setErr_same (s : State) (b : BitVec 1) (v : Byte) : (s.setErr b v).errOf b = v := by
  rcases bit_cases b with rfl | rfl <;> rfl

theorem State.errOf_setErr_other {b c : BitVec 1} (h : b ≠ c) (s : State) (v : Byte) :
    (s.setErr c v).errOf b = s.errOf b := by
  rcases bit_cases b with rfl | rfl <;> rcases bit_cases c with rfl | rfl
  · exact absurd rfl h
  · rfl
  · rfl
  · exact absurd rfl h

/-- RSDEC c leaves the other count alone (R130). -/
theorem errOf_rsdecEffect_other {b c : BitVec 1} (h : b ≠ c) (s : State) : (rsdecEffect c s).errOf b = s.errOf b := by
  simp [rsdecEffect, State.errOf_setErr_other h]

/-- ERR[b] after RSDEC b is what the verdict on RS[b] says (R145, R146). -/
theorem errOf_rsdecEffect_same (b : BitVec 1) (s : State) :
    (rsdecEffect b s).errOf b = (rsDecode params (s.block b)).err params := by
  simp [rsdecEffect]

/-- A block that has been written completely. -/
theorem State.block_setBlock_same (s : State) (b : BitVec 1) {bs : List Byte} (h : bs.length = 160) :
    (s.setBlock b bs).block b = bs := by
  refine List.ext_getElem (by simp [h]) fun i hi hi' => ?_
  have hlen : i < (blockSpace b).len := by simpa using hi
  have helem : (s.setBlock b bs).element (blockSpace b) i = bs.getD i 0 := by
    rcases bit_cases b with rfl | rfl
    · exact State.element_setRs0 s bs hi'
    · exact State.element_setRs1 s bs hi'
  simp [State.block, State.bytes, helem, hi']

/-- RSDEC b with a corrected word leaves that word in RS[b] (R145). -/
theorem block_rsdecEffect_of_corrected {b : BitVec 1} {s : State} {word : List Byte} {count : Nat}
    (h : rsDecode params (s.block b) = .corrected word count) (hlen : word.length = 160) :
    (rsdecEffect b s).block b = word := by
  have hkept : (rsdecEffect b s).block b = (s.setBlock b word).block b :=
    State.bytes_congr fun i _ => by
      simp [rsdecEffect, h, RsVerdict.content, State.element_setErr_other, blockSpace_ne_of]
  rw [hkept, State.block_setBlock_same s b hlen]

/-! ### What each rule reads -/

theorem nextOffset_lt {off : Nat} (h : off < 5200) : nextOffset off < 5200 := by
  simp only [nextOffset, Config.cols, Config.frame]
  split <;> omega

/-- The walk stays in the frame (R90), so it reads RAW only. -/
theorem deintWalk_congr (P : Params) {raw₁ raw₂ : Nat → Byte} (h : ∀ off, off < 5200 → raw₁ off = raw₂ off)
    (n k : Nat) {off : Nat} (hoff : off < 5200) : deintWalk P raw₁ n k off = deintWalk P raw₂ n k off := by
  induction n generalizing k off with
  | zero => rfl
  | succ n ih => rw [deintWalk, deintWalk, h off hoff, ih (k + 1) (nextOffset_lt hoff)]

theorem softPairs_congr {conv₁ conv₂ : Nat → Byte} (h : ∀ k, k < 5132 → conv₁ k = conv₂ k) :
    softPairs conv₁ = softPairs conv₂ := by
  refine List.map_congr_left fun t ht => ?_
  have ht : t < 2566 := List.mem_range.1 ht
  rw [h (2 * t) (by omega), h (2 * t + 1) (by omega)]

theorem descramble_congr (P : Params) {dec₁ dec₂ : Nat → Byte} (h : ∀ i, i < 320 → dec₁ i = dec₂ i) :
    descramble P dec₁ = descramble P dec₂ :=
  List.map_congr_left fun i hi => by rw [h i (List.mem_range.1 hi)]

/-- CONV after DEINT depends on RAW alone (R90). -/
theorem bytes_conv_deintEffect_congr {s₁ s₂ : State} (h : s₁.bytes .raw = s₂.bytes .raw) :
    (deintEffect s₁).bytes .conv = (deintEffect s₂).bytes .conv := by
  have hwalk := deintWalk_congr params (State.bytes_eq_iff.1 h) Config.nsym 0 (off := 1) (by omega)
  refine State.bytes_eq_iff.2 fun i hi => ?_
  have hlen : ∀ s : State, i < (deintWalk params (s.element .raw) Config.nsym 0 1).length := fun s => by
    rw [length_deintWalk]
    exact hi
  rw [deintEffect, deintEffect, State.element_setConv s₁ _ (hlen s₁), State.element_setConv s₂ _ (hlen s₂), hwalk]

/-- DEC after VITERBI depends on CONV alone (R100). -/
theorem bytes_dec_viterbiEffect_congr {s₁ s₂ : State} (h : s₁.bytes .conv = s₂.bytes .conv) :
    (viterbiEffect s₁).bytes .dec = (viterbiEffect s₂).bytes .dec := by
  have hbits : viterbiBits params (s₁.element .conv) = viterbiBits params (s₂.element .conv) := by
    rw [viterbiBits, viterbiBits, softPairs_congr (State.bytes_eq_iff.1 h)]
  refine State.bytes_eq_iff.2 fun i hi => ?_
  have hlen : ∀ s : State, i < (packBits Config.ndec (viterbiBits params (s.element .conv))).length := fun s => by
    rw [length_packBits]
    exact hi
  rw [viterbiEffect, viterbiEffect, State.element_setDec s₁ _ (hlen s₁), State.element_setDec s₂ _ (hlen s₂), hbits]

/-- An element of RS[0] or RS[1] after DESCR (R120). -/
theorem element_block_descrEffect (s : State) (b : BitVec 1) {i : Nat} (hi : i < 160) :
    (descrEffect s).element (blockSpace b) i =
      if b = 0 then (deal (descramble params (s.element .dec))).1.getD i 0
      else (deal (descramble params (s.element .dec))).2.getD i 0 := by
  obtain ⟨hlen0, hlen1⟩ := length_deal (descramble params (s.element .dec))
  rw [length_descramble] at hlen0 hlen1
  rw [descrEffect]
  rcases bit_cases b with rfl | rfl
  · exact (State.element_setRs1_other _ _ (by decide) i).trans (State.element_setRs0 s _ (by omega))
  · exact State.element_setRs1 _ _ (by omega)

/-- RS[0] and RS[1] after DESCR depend on DEC alone (R120). -/
theorem block_descrEffect_congr {s₁ s₂ : State} (h : s₁.bytes .dec = s₂.bytes .dec) (b : BitVec 1) :
    (descrEffect s₁).block b = (descrEffect s₂).block b := by
  refine State.bytes_eq_iff.2 fun i hi => ?_
  rw [len_blockSpace] at hi
  rw [element_block_descrEffect s₁ b hi, element_block_descrEffect s₂ b hi,
    descramble_congr params (State.bytes_eq_iff.1 h)]

/-! ### Agreement of two states on a block, up to what R147 leaves `any` -/

/-- Two states agree on ERR[b] and, unless it is the sentinel (R147), on RS[b]. -/
structure State.SameResult (b : BitVec 1) (s₁ s₂ : State) : Prop where
  err   : s₁.errOf b = s₂.errOf b
  block : s₁.errOf b ≠ 0xFF → s₁.block b = s₂.block b

/-- RSDEC b gives the same result on the same block (R44, R151). -/
theorem sameResult_rsdecEffect_same {b : BitVec 1} {s₁ s₂ : State} (h : s₁.block b = s₂.block b) :
    State.SameResult b (rsdecEffect b s₁) (rsdecEffect b s₂) := by
  refine ⟨by rw [errOf_rsdecEffect_same, errOf_rsdecEffect_same, h], fun hne => ?_⟩
  rcases rsdecEffect_cases b s₁ with ⟨word, count, hword, hlen, -, -⟩ | ⟨hfail, -⟩
  · rw [block_rsdecEffect_of_corrected hword hlen, block_rsdecEffect_of_corrected (h ▸ hword) hlen]
  · exact absurd (by rw [errOf_rsdecEffect_same, hfail]; rfl) hne

/-- RSDEC c keeps agreement on the other block (R130). -/
theorem sameResult_rsdecEffect_other {b c : BitVec 1} (hbc : b ≠ c) {s₁ s₂ : State} (h : State.SameResult b s₁ s₂) :
    State.SameResult b (rsdecEffect c s₁) (rsdecEffect c s₂) := by
  constructor
  · simpa only [errOf_rsdecEffect_other hbc] using h.err
  · simpa only [errOf_rsdecEffect_other hbc, block_rsdecEffect_other hbc] using h.block

/-- RSDEC 0 and RSDEC 1 on states with the same blocks agree on both results. -/
theorem sameResult_rsdecEffect_both {s₁ s₂ : State} (h : ∀ b, s₁.block b = s₂.block b) (b : BitVec 1) :
    State.SameResult b (rsdecEffect 1 (rsdecEffect 0 s₁)) (rsdecEffect 1 (rsdecEffect 0 s₂)) := by
  rcases bit_cases b with rfl | rfl
  · exact sameResult_rsdecEffect_other (by decide) (sameResult_rsdecEffect_same (h 0))
  · refine sameResult_rsdecEffect_same ?_
    rw [block_rsdecEffect_other (by decide), block_rsdecEffect_other (by decide), h 1]

/-- ASSEMBLE writes no block and no count (R160). -/
theorem sameResult_assembleEffect {b : BitVec 1} {s₁ s₂ : State} (h : State.SameResult b s₁ s₂) :
    State.SameResult b (assembleEffect s₁) (assembleEffect s₂) := by
  constructor
  · simpa only [errOf_assembleEffect] using h.err
  · simpa only [errOf_assembleEffect, block_assembleEffect] using h.block

/-- Half b of PAYLOAD after ASSEMBLE is the data part of RS[b] (R160). -/
theorem element_payload_assembleEffect (s : State) (b : BitVec 1) {j : Nat} (hj : j < 128) :
    (assembleEffect s).element .payload (2 * j + b.toNat) = (s.block b).getD j 0 := by
  have hb : b.toNat < 2 := b.isLt
  have hmod : (2 * j + b.toNat) % 2 = b.toNat := by omega
  have hdiv : (2 * j + b.toNat) / 2 = j := by omega
  have hlt : 2 * j + b.toNat < 256 := by omega
  rw [State.block, State.getD_bytes s (blockSpace b) (by rw [len_blockSpace]; omega), assembleEffect,
    State.element_setPayload s _ (by simpa using hlt)]
  simp [hlt, hmod, hdiv]

/-! ### DECODE -/

/-- After the first three stages DECODE writes neither CONV nor DEC (R161). -/
theorem bytes_decodeEffect {sp : Space} (h : sp = .conv ∨ sp = .dec) (s : State) :
    (decodeEffect s).bytes sp = (viterbiEffect (deintEffect s)).bytes sp := by
  refine State.bytes_congr fun i _ => ?_
  rw [decodeEffect_eq]
  rcases h with rfl | rfl <;>
    rw [element_assembleEffect_other _ (by decide), element_rsdecEffect_other _ _ (by decide) (by decide),
      element_rsdecEffect_other _ _ (by decide) (by decide), element_descrEffect_other _ (by decide) (by decide)]

theorem bytes_conv_decodeEffect (s : State) : (decodeEffect s).bytes .conv = (deintEffect s).bytes .conv := by
  rw [bytes_decodeEffect (.inl rfl)]
  exact State.bytes_congr fun i _ => element_viterbiEffect_other _ (by decide) i

/-- Half b of PAYLOAD after DECODE is the data part of RS[b] as it then stands (R164). -/
theorem element_payload_decodeEffect (s : State) (b : BitVec 1) {j : Nat} (hj : j < 128) :
    (decodeEffect s).element .payload (2 * j + b.toNat) = ((decodeEffect s).block b).getD j 0 := by
  rw [decodeEffect_eq, element_payload_assembleEffect _ b hj, block_assembleEffect]

/-- The rule of DECODE on two states with the same RAW: the same CONV and DEC, and for each block the same result and,
without the sentinel, the same half of PAYLOAD (R165). -/
theorem decodeEffect_congr {s₁ s₂ : State} (h : s₁.bytes .raw = s₂.bytes .raw) :
    (decodeEffect s₁).bytes .conv = (decodeEffect s₂).bytes .conv ∧
    (decodeEffect s₁).bytes .dec = (decodeEffect s₂).bytes .dec ∧
    ∀ b : BitVec 1, State.SameResult b (decodeEffect s₁) (decodeEffect s₂) ∧
      ((decodeEffect s₁).errOf b ≠ 0xFF → ∀ j, j < 128 →
        (decodeEffect s₁).element .payload (2 * j + b.toNat) =
          (decodeEffect s₂).element .payload (2 * j + b.toNat)) := by
  have hconv := bytes_conv_deintEffect_congr h
  have hdec := bytes_dec_viterbiEffect_congr hconv
  refine ⟨by rw [bytes_conv_decodeEffect, bytes_conv_decodeEffect, hconv],
    by rw [bytes_decodeEffect (.inr rfl), bytes_decodeEffect (.inr rfl), hdec], fun b => ?_⟩
  have hresult := sameResult_assembleEffect (sameResult_rsdecEffect_both (block_descrEffect_congr hdec) b)
  rw [← decodeEffect_eq, ← decodeEffect_eq] at hresult
  refine ⟨hresult, fun hne j hj => ?_⟩
  rw [element_payload_decodeEffect s₁ b hj, element_payload_decodeEffect s₂ b hj, hresult.block hne]

/-- A completed DECODE (R81, R161). -/
theorem exec_decode_of_not_faulted {s : State} (h : s.faulted = false) :
    exec .decode s = .next (endCommand (decodeEffect (beginCommand s))) :=
  (exec_eq .decode s).trans (runCommand_of_not_faulted decodeEffect h)

/-- Settles O41: each stage's result is a function of the space it reads, from RAW on; RSDEC's up to the block R147
leaves `any`. -/
theorem decodeDependsOnRawAlone : Obligations.DecodeDependsOnRawAlone := by
  intro s₁ s₂ hf₁ hf₂ hraw
  have hraw' : (beginCommand s₁).bytes .raw = (beginCommand s₂).bytes .raw := by
    rw [bytes_beginCommand, bytes_beginCommand]
    exact State.bytes_eq_iff.2 hraw
  obtain ⟨hconv, hdec, hblocks⟩ := decodeEffect_congr hraw'
  refine ⟨_, _, exec_decode_of_not_faulted hf₁, exec_decode_of_not_faulted hf₂, by simpa using hconv,
    by simpa using hdec, fun b => ?_⟩
  obtain ⟨⟨herr, hblock⟩, hpayload⟩ := hblocks b
  simp only [errOf_endCommand, block_endCommand, element_endCommand]
  exact ⟨herr, fun hne => ⟨hblock hne, hpayload hne⟩⟩

end Sys2Proof.Machine
end

section
/-! PROOFS. The CRC engine and the pipeline share no state but STATUS, so their commands commute (O51). -/

namespace Sys2Proof.Machine

/-- STATUS and the three CRC registers are rewritten: all the state that no rule of the pipeline reads or writes. -/
def State.withRegs (s : State) (st : BitVec 8) (crcr : BitVec 32) (mode : BitVec 1) (out : BitVec 32) : State :=
  { s with status := st, crcr := crcr, crcmode := mode, crcout := out }

section
variable (s : State) (st : BitVec 8) (crcr : BitVec 32) (mode : BitVec 1) (out : BitVec 32)

@[simp] theorem State.element_withRegs : (s.withRegs st crcr mode out).element = s.element := by
  funext sp i
  cases sp <;> rfl

@[simp] theorem State.block_withRegs (b : BitVec 1) : (s.withRegs st crcr mode out).block b = s.block b := by
  simp [State.block, State.bytes]

@[simp] theorem State.draws_withRegs : (s.withRegs st crcr mode out).draws = s.draws := rfl

@[simp] theorem State.setConv_withRegs (bs : List Byte) :
    (s.withRegs st crcr mode out).setConv bs = (s.setConv bs).withRegs st crcr mode out := rfl

@[simp] theorem State.setDec_withRegs (bs : List Byte) :
    (s.withRegs st crcr mode out).setDec bs = (s.setDec bs).withRegs st crcr mode out := rfl

@[simp] theorem State.setRs0_withRegs (bs : List Byte) :
    (s.withRegs st crcr mode out).setRs0 bs = (s.setRs0 bs).withRegs st crcr mode out := rfl

@[simp] theorem State.setRs1_withRegs (bs : List Byte) :
    (s.withRegs st crcr mode out).setRs1 bs = (s.setRs1 bs).withRegs st crcr mode out := rfl

@[simp] theorem State.setPayload_withRegs (bs : List Byte) :
    (s.withRegs st crcr mode out).setPayload bs = (s.setPayload bs).withRegs st crcr mode out := rfl

@[simp] theorem State.useDraws_withRegs (n : Nat) :
    (s.withRegs st crcr mode out).useDraws n = (s.useDraws n).withRegs st crcr mode out := rfl

@[simp] theorem State.setBlock_withRegs (b : BitVec 1) (bs : List Byte) :
    (s.withRegs st crcr mode out).setBlock b bs = (s.setBlock b bs).withRegs st crcr mode out := by
  unfold State.setBlock
  split <;> rfl

@[simp] theorem State.setErr_withRegs (b : BitVec 1) (v : Byte) :
    (s.withRegs st crcr mode out).setErr b v = (s.setErr b v).withRegs st crcr mode out := by
  unfold State.setErr
  split <;> rfl

/-! ### No rule of the pipeline reads or writes these registers -/

@[simp] theorem deintEffect_withRegs :
    deintEffect (s.withRegs st crcr mode out) = (deintEffect s).withRegs st crcr mode out := by
  simp [deintEffect]

@[simp] theorem viterbiEffect_withRegs :
    viterbiEffect (s.withRegs st crcr mode out) = (viterbiEffect s).withRegs st crcr mode out := by
  simp [viterbiEffect]

@[simp] theorem descrEffect_withRegs :
    descrEffect (s.withRegs st crcr mode out) = (descrEffect s).withRegs st crcr mode out := by
  simp [descrEffect]

@[simp] theorem rsdecEffect_withRegs (b : BitVec 1) :
    rsdecEffect b (s.withRegs st crcr mode out) = (rsdecEffect b s).withRegs st crcr mode out := by
  simp [rsdecEffect]

@[simp] theorem assembleEffect_withRegs :
    assembleEffect (s.withRegs st crcr mode out) = (assembleEffect s).withRegs st crcr mode out := by
  simp [assembleEffect]

/-- The rule of a pipeline command works beside STATUS and the CRC registers (R181). -/
theorem pipelineEffect_withRegs {p : Instr} (h : isCrc p = false) :
    effectOf p (s.withRegs st crcr mode out) = (effectOf p s).withRegs st crcr mode out := by
  cases p with
  | deint => exact deintEffect_withRegs ..
  | viterbi => exact viterbiEffect_withRegs ..
  | descr => exact descrEffect_withRegs ..
  | rsdec b => exact rsdecEffect_withRegs ..
  | assemble => exact assembleEffect_withRegs ..
  | decode => simp [effectOf, decodeEffect_eq]
  | _ => cases h

end

theorem State.CrcKept.refl (s : State) : s.CrcKept s := ⟨rfl, rfl, rfl⟩

/-- A pipeline command's rule keeps the CRC registers (R181). -/
theorem crcKept_pipelineEffect {p : Instr} (h : isCrc p = false) (s : State) : s.CrcKept (effectOf p s) := by
  have hregs : effectOf p s = (effectOf p s).withRegs s.status s.crcr s.crcmode s.crcout :=
    pipelineEffect_withRegs s s.status s.crcr s.crcmode s.crcout h
  constructor <;> rw [hregs] <;> rfl

/-- A CRC command changes CRC registers only, and to values that depend on CRC registers only (R170, R181): what it
makes of them in `s`, it makes of them in every state with the same ones. -/
theorem crcEffect_eq_withRegs {c : Instr} (h : isCrc c = true) {s t : State} (hk : s.CrcKept t) :
    effectOf c t =
      t.withRegs t.status (effectOf c s).crcr (effectOf c s).crcmode (effectOf c s).crcout := by
  obtain ⟨hcrcr, hmode, hout⟩ := hk
  cases c with
  | crcinit m => simp [effectOf, crcinitEffect, State.withRegs, hout]
  | crcbyte imm8 => simp [effectOf, crcbyteEffect, State.withRegs, hcrcr, hmode, hout]
  | crcfin => simp [effectOf, crcfinEffect, State.withRegs, hcrcr, hmode]
  | _ => cases h

/-- A CRC command's rule and a pipeline command's rule commute (R181). -/
theorem crcEffect_pipelineEffect_comm {c p : Instr} (hc : isCrc c = true) (hp : isCrc p = false) (s : State) :
    effectOf p (effectOf c s) = effectOf c (effectOf p s) := by
  rw [crcEffect_eq_withRegs hc (crcKept_pipelineEffect hp s), crcEffect_eq_withRegs hc (.refl s),
    pipelineEffect_withRegs _ _ _ _ _ hp, status_effectOf]
  rfl

/-! ### The command wrapper -/

/-- No rule reads STATUS. -/
theorem effectOf_onStatus (i : Instr) (f : BitVec 8 → BitVec 8) (s : State) :
    effectOf i (s.onStatus f) = (effectOf i s).onStatus f := by
  cases hi : isCrc i with
  | true =>
    cases i with
    | crcinit m => rfl
    | crcbyte imm8 => rfl
    | crcfin => rfl
    | _ => cases hi
  | false =>
    obtain ⟨hcrcr, hmode, hout⟩ := crcKept_pipelineEffect hi s
    have hstatus := status_effectOf i s
    calc effectOf i (s.onStatus f)
        = (effectOf i s).withRegs (f s.status) s.crcr s.crcmode s.crcout := pipelineEffect_withRegs _ _ _ _ _ hi
      _ = (effectOf i s).onStatus f := by rw [← hcrcr, ← hmode, ← hout, ← hstatus]; rfl

/-- What Issue makes of STATUS around a command's rule (R81). -/
def completeStatus (st : BitVec 8) : BitVec 8 :=
  Status.setDone true (Status.setBusy false (Status.setBusy true (Status.setDone false st)))

/-- A command that is not refused does what its rule says and completes (R81). -/
theorem exec_of_not_faulted (i : Instr) {s : State} (h : s.faulted = false) :
    exec i s = .next ((effectOf i s).onStatus completeStatus) := by
  rw [exec_eq, runCommand_of_not_faulted _ h, beginCommand, effectOf_onStatus]
  rfl

/-- Two commands, neither refused: both rules, and STATUS completed twice (R81). -/
theorem execAll_pair_of_not_faulted (i j : Instr) {s : State} (h : s.faulted = false) :
    execAll [i, j] s = .next ((effectOf j (effectOf i s)).onStatus (completeStatus ∘ completeStatus)) := by
  have hf : ((effectOf i s).onStatus completeStatus).faulted = false := by
    simpa [State.faulted, completeStatus, status_effectOf] using h
  simp only [execAll, exec_of_not_faulted i h, exec_of_not_faulted j hf, effectOf_onStatus]
  rfl

/-- While FAULT = 1 no command changes the state (R194). -/
theorem execAll_pair_of_faulted (i j : Instr) {s : State} (h : s.faulted = true) : execAll [i, j] s = .next s := by
  simp [execAll, exec_eq, runCommand_of_faulted _ h]

/-- Every answer of a command: refused, or its rule with STATUS completed. -/
theorem exec_cases {i : Instr} {s t : State} (h : exec i s = .next t) :
    t = s ∨ t = (effectOf i s).onStatus completeStatus := by
  cases hf : s.faulted with
  | true =>
    rw [exec_eq, runCommand_of_faulted _ hf] at h
    cases h
    exact .inl rfl
  | false =>
    rw [exec_of_not_faulted i hf] at h
    cases h
    exact .inr rfl

theorem State.KeptBut.refl (written : List Space) (s : State) : s.KeptBut written s :=
  ⟨fun _ _ _ => rfl, rfl, rfl, rfl⟩

/-- A CRC command changes no element, nothing of the host's, and takes no draw (R181). -/
theorem exec_crc_frame {c : Instr} (hc : isCrc c = true) {s t : State} (h : exec c s = .next t) :
    s.KeptBut [] t ∧ t.draws = s.draws := by
  rcases exec_cases h with rfl | rfl
  · exact ⟨.refl _ _, rfl⟩
  · rw [crcEffect_eq_withRegs hc (.refl s)]
    exact ⟨⟨fun sp _ i => by simp, rfl, rfl, rfl⟩, rfl⟩

/-- A pipeline command keeps the three CRC registers (R181). -/
theorem exec_pipeline_crcKept {p : Instr} (hp : isCrc p = false) {s t : State} (h : exec p s = .next t) :
    s.CrcKept t := by
  rcases exec_cases h with rfl | rfl
  · exact .refl _
  · obtain ⟨hcrcr, hmode, hout⟩ := crcKept_pipelineEffect hp s
    exact ⟨hcrcr, hmode, hout⟩

/-- A CRC command and a pipeline command, in either order (R181). -/
theorem execAll_crc_pipeline_comm {c p : Instr} (hc : isCrc c = true) (hp : isCrc p = false) (s : State) :
    execAll [c, p] s = execAll [p, c] s := by
  cases hf : s.faulted with
  | true => rw [execAll_pair_of_faulted c p hf, execAll_pair_of_faulted p c hf]
  | false =>
    rw [execAll_pair_of_not_faulted c p hf, execAll_pair_of_not_faulted p c hf, crcEffect_pipelineEffect_comm hc hp]

/-- Settles O51: the two sets of commands have disjoint state but for STATUS, which every rule leaves to the wrapper. -/
theorem crcAndPipelineAreIndependent : Obligations.CrcAndPipelineAreIndependent :=
  ⟨fun _ _ _ hc h => exec_crc_frame hc h, fun _ _ _ hp h => exec_pipeline_crcKept hp h,
    fun _ _ s hc hp => execAll_crc_pipeline_comm hc hp s⟩

end Sys2Proof.Machine
end

section
/-! PROOFS. What reset leaves (O7, O8), and the invariant of every state between atomic steps, operation by operation
up to the step (O9). -/

namespace Sys2Proof.Machine

/-! ### The reset event -/

/-- After the reset event every buffer element is the free byte of a draw that was not yet used (R43, R205). -/
theorem element_resetEvent (s : State) {sp : Space} (h : sp ≠ .err) (i : Nat) :
    (resetEvent s).element sp i = Config.freeByte s.draws sp.id i := by
  cases sp with
  | err => exact absurd rfl h
  | _ => rfl

/-- Settles O7: the reset event is State.reset with a new epoch. -/
theorem resetEventGivesResetValues : Obligations.ResetEventGivesResetValues := fun s =>
  ⟨resetEvent s, rfl, rfl, rfl, rfl, rfl, rfl, rfl, rfl, rfl, fun _ hsp i => element_resetEvent s hsp i⟩

/-- The state after reset satisfies the invariant: no buffer has a cell yet (R42). -/
theorem inv_reset : State.reset.Inv where
  buffers := ⟨Memory.wf_nil _, Memory.wf_nil _, Memory.wf_nil _, Memory.wf_nil _, Memory.wf_nil _, Memory.wf_nil _⟩
  status := by decide
  err0 := errLegal_sentinel
  err1 := errLegal_sentinel
  crcHigh := fun _ => by decide
  fresh := Nat.zero_lt_one

/-- Settles O8: the register values are those of the definition, and the invariant is `inv_reset`. -/
theorem resetSatisfiesInvariant : Obligations.ResetSatisfiesInvariant :=
  ⟨rfl, rfl, rfl, rfl, rfl, rfl, inv_reset, by decide, by decide⟩

/-! ### The invariant under the named operations -/

/-- Clearing BUSY keeps STATUS legal. -/
theorem Status.legal_clearBusy : ∀ st : BitVec 8, legal st = true → legal (setBusy false st) = true := by decide

namespace State.Inv

variable {s : State}

/-- The invariant says nothing of the queue and the replies, and of the draws only that the next one is fresh. -/
theorem withHost (h : s.Inv) {epoch draws : Nat} (hfresh : epoch < draws) (pending : List HostAction)
    (replies : List Reply) :
    State.Inv { s with epoch := epoch, draws := draws, pending := pending, replies := replies } :=
  ⟨h.buffers, h.status, h.err0, h.err1, h.crcHigh, hfresh⟩

theorem onStatus (h : s.Inv) {f : BitVec 8 → BitVec 8} (hf : Status.legal (f s.status) = true) : (s.onStatus f).Inv :=
  ⟨h.buffers, hf, h.err0, h.err1, h.crcHigh, h.fresh⟩

theorem answer (h : s.Inv) (r : Reply) : (s.answer r).Inv := h.withHost h.fresh _ _

theorem useDraws (h : s.Inv) (n : Nat) : (s.useDraws n).Inv := h.withHost (Nat.lt_add_right n h.fresh) _ _

/-- New content for the six buffers, all of it canonical. -/
theorem withBuffers (h : s.Inv) {raw conv dec rs0 rs1 payload : Memory}
    (hb : State.buffersWf { s with raw := raw, conv := conv, dec := dec, rs0 := rs0, rs1 := rs1, payload := payload }) :
    State.Inv { s with raw := raw, conv := conv, dec := dec, rs0 := rs0, rs1 := rs1, payload := payload } :=
  ⟨hb, h.status, h.err0, h.err1, h.crcHigh, h.fresh⟩

theorem setConv (h : s.Inv) {bs : List Byte} (hlen : bs.length = 5132) : (s.setConv bs).Inv := by
  obtain ⟨hraw, -, hrest⟩ := h.buffers
  exact h.withBuffers ⟨hraw, Memory.wf_ofBytes hlen.le, hrest⟩

theorem setDec (h : s.Inv) {bs : List Byte} (hlen : bs.length = 320) : (s.setDec bs).Inv := by
  obtain ⟨hraw, hconv, -, hrest⟩ := h.buffers
  exact h.withBuffers ⟨hraw, hconv, Memory.wf_ofBytes hlen.le, hrest⟩

theorem setRs0 (h : s.Inv) {bs : List Byte} (hlen : bs.length = 160) : (s.setRs0 bs).Inv := by
  obtain ⟨hraw, hconv, hdec, -, hrest⟩ := h.buffers
  exact h.withBuffers ⟨hraw, hconv, hdec, Memory.wf_ofBytes hlen.le, hrest⟩

theorem setRs1 (h : s.Inv) {bs : List Byte} (hlen : bs.length = 160) : (s.setRs1 bs).Inv := by
  obtain ⟨hraw, hconv, hdec, hrs0, -, hpayload⟩ := h.buffers
  exact h.withBuffers ⟨hraw, hconv, hdec, hrs0, Memory.wf_ofBytes hlen.le, hpayload⟩

theorem setPayload (h : s.Inv) {bs : List Byte} (hlen : bs.length = 256) : (s.setPayload bs).Inv := by
  obtain ⟨hraw, hconv, hdec, hrs0, hrs1, -⟩ := h.buffers
  exact h.withBuffers ⟨hraw, hconv, hdec, hrs0, hrs1, Memory.wf_ofBytes hlen.le⟩

theorem setBlock (h : s.Inv) (b : BitVec 1) {bs : List Byte} (hlen : bs.length = 160) : (s.setBlock b bs).Inv := by
  rcases bit_cases b with rfl | rfl
  · exact h.setRs0 hlen
  · exact h.setRs1 hlen

theorem setErr (h : s.Inv) (b : BitVec 1) {v : Byte} (hv : errLegal v = true) : (s.setErr b v).Inv := by
  rcases bit_cases b with rfl | rfl
  · exact ⟨h.buffers, h.status, hv, h.err1, h.crcHigh, h.fresh⟩
  · exact ⟨h.buffers, h.status, h.err0, hv, h.crcHigh, h.fresh⟩

/-- A host write of an existing element the host may write (R24, R56). -/
theorem setElement (h : s.Inv) {sp : Space} (hsp : sp.hostWritable = true) {i : Nat} (hi : i < sp.len) (v : Byte) :
    (s.setElement sp i v).Inv := by
  obtain ⟨hraw, hconv, hdec, hrs0, hrs1, hpayload⟩ := h.buffers
  cases sp with
  | raw => exact h.withBuffers ⟨Memory.wf_set hraw hi v, hconv, hdec, hrs0, hrs1, hpayload⟩
  | conv => exact h.withBuffers ⟨hraw, Memory.wf_set hconv hi v, hdec, hrs0, hrs1, hpayload⟩
  | dec => exact h.withBuffers ⟨hraw, hconv, Memory.wf_set hdec hi v, hrs0, hrs1, hpayload⟩
  | rs0 => exact h.withBuffers ⟨hraw, hconv, hdec, Memory.wf_set hrs0 hi v, hrs1, hpayload⟩
  | rs1 => exact h.withBuffers ⟨hraw, hconv, hdec, hrs0, Memory.wf_set hrs1 hi v, hpayload⟩
  | payload => cases hsp
  | err => cases hsp

/-- The CRC registers are rewritten, the upper half of CRCR zero if the mode is 16-bit (R32). -/
theorem withCrc (h : s.Inv) {crcr : BitVec 32} {mode : BitVec 1} (hhigh : mode = 0 → crcr.extractLsb' 16 16 = 0)
    (out : BitVec 32) : State.Inv { s with crcr := crcr, crcmode := mode, crcout := out } :=
  ⟨h.buffers, h.status, h.err0, h.err1, hhigh, h.fresh⟩

/-- BUSY is 0 between atomic steps (R58). -/
theorem busy_eq_false (h : s.Inv) : s.busy = false := Status.busy_of_legal s.status h.status

end State.Inv

/-! ### The invariant under the commands -/

section
variable {s : State}

theorem inv_deintEffect (h : s.Inv) : (deintEffect s).Inv := h.setConv (length_deintWalk ..)

theorem inv_viterbiEffect (h : s.Inv) : (viterbiEffect s).Inv := h.setDec (length_packBits ..)

theorem inv_descrEffect (h : s.Inv) : (descrEffect s).Inv := by
  obtain ⟨hlen0, hlen1⟩ := length_deal (descramble params (s.element .dec))
  rw [length_descramble] at hlen0 hlen1
  exact (h.setRs0 hlen0).setRs1 hlen1

/-- RSDEC leaves a count of at most 16 or the sentinel in ERR[b] (R30, R145, R146). -/
theorem inv_rsdecEffect (h : s.Inv) (b : BitVec 1) : (rsdecEffect b s).Inv := by
  rcases rsdecEffect_cases b s with ⟨word, count, -, hlen, hcount, heq⟩ | ⟨-, heq⟩
  · rw [heq]
    exact ((h.setBlock b hlen).setErr b (errLegal_count hcount)).useDraws 0
  · rw [heq]
    exact ((h.setBlock b (length_freeBlock ..)).setErr b errLegal_sentinel).useDraws 1

theorem inv_assembleEffect (h : s.Inv) : (assembleEffect s).Inv := h.setPayload (by simp)

theorem inv_decodeEffect (h : s.Inv) : (decodeEffect s).Inv :=
  inv_assembleEffect (inv_rsdecEffect (inv_rsdecEffect (inv_descrEffect (inv_viterbiEffect (inv_deintEffect h))) 0) 1)

/-- A 16-bit register value in CRCR leaves CRCR[31:16] zero (R32). -/
theorem extractLsb'_high_setWidth (r : BitVec 16) : (r.setWidth 32).extractLsb' 16 16 = 0 := by
  ext i hi
  simp

theorem inv_crcinitEffect (h : s.Inv) (m : BitVec 1) : (crcinitEffect m s).Inv := by
  refine h.withCrc (fun hm => ?_) _
  rw [if_pos hm]
  exact extractLsb'_high_setWidth _

theorem inv_crcbyteEffect (h : s.Inv) (imm8 : BitVec 8) : (crcbyteEffect imm8 s).Inv := by
  refine h.withCrc (fun hm => ?_) _
  rw [if_pos hm]
  exact extractLsb'_high_setWidth _

theorem inv_crcfinEffect (h : s.Inv) : (crcfinEffect s).Inv := h.withCrc h.crcHigh _

theorem inv_effectOf (h : s.Inv) (i : Instr) : (effectOf i s).Inv := by
  cases i with
  | deint => exact inv_deintEffect h
  | viterbi => exact inv_viterbiEffect h
  | descr => exact inv_descrEffect h
  | rsdec b => exact inv_rsdecEffect h b
  | assemble => exact inv_assembleEffect h
  | decode => exact inv_decodeEffect h
  | crcinit m => exact inv_crcinitEffect h m
  | crcbyte imm8 => exact inv_crcbyteEffect h imm8
  | crcfin => exact inv_crcfinEffect h

/-- A command is refused without a change, or its rule and the wrapper keep the invariant (R81, R194). -/
theorem exec_keeps_inv (h : s.Inv) (i : Instr) : ∃ t, exec i s = .next t ∧ t.Inv := by
  cases hf : s.faulted with
  | true => exact ⟨s, by rw [exec_eq, runCommand_of_faulted _ hf], h⟩
  | false =>
    refine ⟨_, exec_of_not_faulted i hf, (inv_effectOf h i).onStatus ?_⟩
    rw [status_effectOf]
    exact Status.legal_complete s.status h.status hf

/-! ### The invariant under the host's actions -/

/-- A raised fault keeps the invariant, whether it is the first or not (R187). -/
theorem inv_raiseFault (h : s.Inv) {c : Cause} (hc : c ≠ .none) : (raiseFault c s).Inv := by
  have hlegal : Status.legal (raiseFault c s).status = true := by
    cases hf : s.faulted with
    | true =>
      have hdone := Status.legal_clearDone s.status h.status
      rw [raiseFault_status_of_faulted hf]
      exact Status.legal_clearBusy _ hdone
    | false =>
      rw [raiseFault_status hf]
      exact Status.legal_raise c hc s.status h.status hf
  rw [raiseFault_eq]
  exact h.onStatus (f := fun _ => (raiseFault c s).status) hlegal

theorem ofDecodeError_ne_none (e : DecodeError) : Cause.ofDecodeError e ≠ .none := by
  cases e <;> decide

theorem rejectWord_keeps_inv (h : s.Inv) (e : DecodeError) : ∃ t, rejectWord e s = .next t ∧ t.Inv := by
  unfold rejectWord
  split
  · exact ⟨s, rfl, h⟩
  · exact ⟨_, rfl, inv_raiseFault (h.onStatus (Status.legal_clearDone s.status h.status)) (ofDecodeError_ne_none e)⟩

theorem issue_keeps_inv (h : s.Inv) (w : CommandWord) : ∃ t, issue w s = .next t ∧ t.Inv := by
  cases hw : decodeWord w with
  | ok i =>
    rw [issue_of_legal hw]
    exact exec_keeps_inv h i
  | error e =>
    rw [issue_of_illegal hw]
    exact rejectWord_keeps_inv h e

theorem inv_memRead (h : s.Inv) (space i : Nat) : (memRead space i s).Inv := by
  unfold memRead
  split
  · exact h.answer _
  · refine State.Inv.useDraws (State.Inv.answer ?_ _) 1
    split
    · exact h
    · exact inv_raiseFault h (by decide)

end

/-- Everything a host write can do: nothing, the fault, or the write of an existing element of a space the host may
write (R24, R56). -/
theorem memWrite_cases (space i : Nat) (v : Byte) (s : State) :
    memWrite space i v s = s ∨ memWrite space i v s = raiseFault .badAccess s ∨
    ∃ sp : Space, sp.hostWritable = true ∧ i < sp.len ∧ memWrite space i v s = s.setElement sp i v := by
  unfold memWrite
  split
  · exact .inl rfl
  · split
    · next sp hloc =>
      split
      · next hsp => exact .inr (.inr ⟨sp, hsp, (location_some hloc).2, rfl⟩)
      · exact .inr (.inl rfl)
    · exact .inr (.inl rfl)

section
variable {s : State}

theorem inv_memWrite (h : s.Inv) (space i : Nat) (v : Byte) : (memWrite space i v s).Inv := by
  rcases memWrite_cases space i v s with heq | heq | ⟨sp, hsp, hi, heq⟩
  · rw [heq]
    exact h
  · rw [heq]
    exact inv_raiseFault h (by decide)
  · rw [heq]
    exact h.setElement hsp hi v

theorem inv_regRead (h : s.Inv) (name : RegName) : (regRead name s).Inv := by
  cases name <;> exact h.answer _

theorem inv_resetEvent (s : State) : (resetEvent s).Inv := inv_reset.withHost (Nat.lt_succ_self s.draws) _ _

theorem perform_keeps_inv (h : s.Inv) (a : HostAction) : ∃ t, perform a s = .next t ∧ t.Inv := by
  cases a with
  | issue w => exact issue_keeps_inv h w
  | memRead space i => exact ⟨_, rfl, inv_memRead h space i⟩
  | memWrite space i v => exact ⟨_, rfl, inv_memWrite h space i v⟩
  | regRead name => exact ⟨_, rfl, inv_regRead h name⟩
  | reset => exact ⟨_, rfl, inv_resetEvent s⟩

end

/-- On a core that is not busy the oldest action is performed (R58). -/
theorem hostStep_of_not_busy {s : State} (h : s.busy = false) (a : HostAction) (rest : List HostAction) :
    hostStep a rest s = perform a { s with pending := rest } := by
  simp [hostStep, h]

/-- Settles O9: a step idles or performs one host action on a core that is not busy, and each action keeps the
invariant. -/
theorem everyStepKeepsInvariant : Obligations.EveryStepKeepsInvariant := by
  intro s h
  unfold step
  split
  · exact ⟨s, rfl, h⟩
  · next a rest _ =>
    rw [hostStep_of_not_busy h.busy_eq_false]
    exact perform_keeps_inv (h.withHost h.fresh rest _) a

end Sys2Proof.Machine
end

section
/-! PROOFS. The spaces that only the host or only the core writes (O19), and what RSDEC reads (O38). -/

namespace Sys2Proof.Machine

/-! ### Who writes RAW, PAYLOAD and ERR -/

theorem raw_effectOf (i : Instr) (s : State) : (effectOf i s).raw = s.raw := by
  cases i <;> simp [effectOf, decodeEffect_eq]

/-- No rule writes RAW, and none begins a new epoch for its unwritten elements (R25). -/
theorem element_raw_effectOf (i : Instr) (s : State) (k : Nat) :
    (effectOf i s).element .raw k = s.element .raw k := by
  obtain ⟨-, -, hepoch⟩ := host_effectOf i s
  rw [State.element_raw, State.element_raw, raw_effectOf, hepoch]

/-- Writing an element the host may write changes no element of a space that is read-only to it (R24). -/
theorem State.element_setElement_of_readOnly (s : State) {sp sp' : Space} (h : sp.hostWritable = false)
    (h' : sp'.hostWritable = true) (i : Nat) (v : Byte) (k : Nat) :
    (s.setElement sp' i v).element sp k = s.element sp k := by
  cases sp' with
  | payload => cases h'
  | err => cases h'
  | _ =>
    cases sp with
    | payload => rfl
    | err => rfl
    | _ => cases h

/-- A host write changes no element of a space that is read-only to the host (R24). -/
theorem element_memWrite_of_readOnly {sp : Space} (h : sp.hostWritable = false) (space i : Nat) (v : Byte) (s : State)
    (k : Nat) : (memWrite space i v s).element sp k = s.element sp k := by
  rcases memWrite_cases space i v s with heq | heq | ⟨sp', hsp', -, heq⟩
  · rw [heq]
  · rw [heq, element_raiseFault]
  · rw [heq, State.element_setElement_of_readOnly s h hsp']

/-- Settles O19: the commands' rules have no line that writes RAW, and MemWrite checks that the space is writable. -/
theorem rawAndOutputsAreProtected : Obligations.RawAndOutputsAreProtected := by
  constructor
  · intro i s t h k
    rcases exec_cases h with rfl | rfl
    · rfl
    · rw [State.element_onStatus, element_raw_effectOf]
  · intro s t space i v h
    cases h
    exact ⟨element_memWrite_of_readOnly rfl space i v s, element_memWrite_of_readOnly rfl space i v s⟩

/-! ### RSDEC reads its block alone -/

@[simp] theorem block_beginCommand (s : State) (b : BitVec 1) : (beginCommand s).block b = s.block b :=
  bytes_beginCommand s (blockSpace b)

/-- Settles O38: on the same RS[b] the two runs of the decoder have the same verdict. -/
theorem rsdecDependsOnItsBlockAlone : Obligations.RsdecDependsOnItsBlockAlone := by
  intro s₁ s₂ b hf₁ hf₂ hblock
  have hbegin : (beginCommand s₁).block b = (beginCommand s₂).block b := by
    rw [block_beginCommand, block_beginCommand, hblock]
  obtain ⟨herr, hcontent⟩ := sameResult_rsdecEffect_same hbegin
  refine ⟨_, _, runCommand_of_not_faulted (rsdecEffect b) hf₁, runCommand_of_not_faulted (rsdecEffect b) hf₂, ?_⟩
  simp only [errOf_endCommand, block_endCommand]
  exact ⟨herr, hcontent⟩

end Sys2Proof.Machine
end

section
/-! PROOFS. The host port: MemRead (O10), MemWrite (O11), RegRead (O12), and the step that performs the oldest host
action (O4, O5). -/

namespace Sys2Proof.Machine

/-! ### One element written -/

/-- The written element of a buffer reads as the value (R10). -/
theorem State.element_setElement_same (s : State) {sp : Space} (h : sp ≠ .err) (i : Nat) (v : Byte) :
    (s.setElement sp i v).element sp i = v := by
  cases sp with
  | err => exact absurd rfl h
  | _ => exact readCell_set_same ..

/-- Writing a buffer leaves its other elements alone. -/
theorem State.element_setElement_other_index (s : State) {sp : Space} (h : sp ≠ .err) {i j : Nat} (hj : j ≠ i)
    (v : Byte) : (s.setElement sp i v).element sp j = s.element sp j := by
  cases sp with
  | err => exact absurd rfl h
  | _ => exact readCell_set_other _ _ _ v hj

/-- Writing a buffer leaves the other spaces alone (R23). -/
theorem State.element_setElement_other_space (s : State) {sp sp' : Space} (h : sp ≠ .err) (hsp : sp' ≠ sp) (i j : Nat)
    (v : Byte) : (s.setElement sp i v).element sp' j = s.element sp' j := by
  revert hsp
  cases sp with
  | err => exact absurd rfl h
  | _ => cases sp' <;> simp [setElement, element]

/-- Writing a buffer keeps everything that is no element (R56). -/
theorem State.setElement_frame (s : State) {sp : Space} (h : sp ≠ .err) (i : Nat) (v : Byte) :
    (s.setElement sp i v).status = s.status ∧ s.CrcKept (s.setElement sp i v) ∧
    (s.setElement sp i v).draws = s.draws ∧ (s.setElement sp i v).epoch = s.epoch ∧
    (s.setElement sp i v).pending = s.pending ∧ (s.setElement sp i v).replies = s.replies := by
  cases sp with
  | err => exact absurd rfl h
  | _ => exact ⟨rfl, ⟨rfl, rfl, rfl⟩, rfl, rfl, rfl, rfl⟩

/-! ### The host's accesses, case by case -/

/-- The first fault leaves in STATUS what R187 says. -/
theorem faulted_raiseFault (c : Cause) {s : State} (h : s.faulted = false) :
    Status.Faulted c s.status (raiseFault c s).status := by
  rw [raiseFault_status h]
  constructor <;> simp

theorem memRead_id (s : State) {sp : Space} {i : Nat} (hi : i < sp.len) :
    memRead sp.id i s = s.answer (.element (s.element sp i)) := by
  rw [memRead, location_id sp hi]

theorem memRead_outside {s : State} {space i : Nat} (h : WellFormed.readAccess space i = false)
    (hf : s.faulted = false) : memRead space i s = answerAny space i (raiseFault .badAccess s) := by
  simp [memRead, location_eq_none.2 h, hf]

theorem ofId_id (sp : Space) : Space.ofId sp.id = some sp := by cases sp <;> rfl

/-- Of the existing elements the host may write those of a host-writable space (R24). -/
theorem writeAccess_id {sp : Space} {i : Nat} (hi : i < sp.len) :
    WellFormed.writeAccess sp.id i = sp.hostWritable := by
  simp [WellFormed.writeAccess, ofId_id, hi]

theorem ne_err_of_hostWritable {sp : Space} (h : sp.hostWritable = true) : sp ≠ .err := by
  rintro rfl
  cases h

theorem memWrite_of_faulted {s : State} (hf : s.faulted = true) (space i : Nat) (v : Byte) :
    memWrite space i v s = s := by
  simp [memWrite, hf]

theorem memWrite_of_forbidden {s : State} {space i : Nat} (h : WellFormed.writeAccess space i = false)
    (hf : s.faulted = false) (v : Byte) : memWrite space i v s = raiseFault .badAccess s := by
  cases hloc : location space i with
  | none => simp [memWrite, hf, hloc]
  | some sp =>
    obtain ⟨rfl, hi⟩ := location_some hloc
    rw [writeAccess_id hi] at h
    simp [memWrite, hf, hloc, h]

theorem memWrite_id {s : State} {sp : Space} {i : Nat} (hi : i < sp.len) (hsp : sp.hostWritable = true)
    (hf : s.faulted = false) (v : Byte) : memWrite sp.id i v s = s.setElement sp i v := by
  simp [memWrite, hf, location_id sp hi, hsp]

/-- Settles O10: a pair in range names its element, and any other pair raises the fault, which changes STATUS only. -/
theorem memReadReturnsElement : Obligations.MemReadReturnsElement := by
  refine fun s => ⟨fun sp i hi => ?_, fun space i hout hf => ?_⟩
  · rw [perform, memRead_id s hi, State.answer]
  · refine ⟨Config.freeByte s.draws space i, s.draws + 1, (raiseFault .badAccess s).status, ?_,
      faulted_raiseFault .badAccess hf⟩
    rw [perform, memRead_outside hout hf, raiseFault_eq]
    rfl

/-- Settles O11: the three clauses are the three answers of MemWrite: nothing, the fault, the write of one element. -/
theorem memWriteWritesOneElement : Obligations.MemWriteWritesOneElement := by
  refine fun s v => ⟨fun space i hf => ?_, fun space i hf hout => ?_, fun sp i hf hi hsp => ?_⟩
  · rw [perform, memWrite_of_faulted hf]
  · refine ⟨(raiseFault .badAccess s).status, ?_, faulted_raiseFault .badAccess hf⟩
    rw [perform, memWrite_of_forbidden hout hf, ← raiseFault_eq]
  · have hbuf : sp ≠ .err := ne_err_of_hostWritable hsp
    refine ⟨s.setElement sp i v, by rw [perform, memWrite_id hi hsp hf], s.element_setElement_same hbuf i v,
      fun sp' j hne => ?_, s.setElement_frame hbuf i v⟩
    by_cases hsame : sp' = sp
    · subst hsame
      exact s.element_setElement_other_index hbuf (fun hj => hne ⟨rfl, hj⟩) v
    · exact s.element_setElement_other_space hbuf hsame i j v

/-- Settles O12: reading a register is answering its value. -/
theorem regReadReturnsRegister : Obligations.RegReadReturnsRegister := fun _ => ⟨rfl, rfl, rfl, rfl⟩

/-! ### The word of a command is read back -/

section
variable (op : BitVec 4) (arg : BitVec 8)

@[simp] theorem opField_assembleWord : opField (assembleWord op arg) = op := BitVec.extractLsb'_append_eq_left

@[simp] theorem rsvField_assembleWord : rsvField (assembleWord op arg) = 0 :=
  (BitVec.extractLsb'_append_eq_of_add_le (by decide)).trans BitVec.extractLsb'_append_eq_left

@[simp] theorem argField_assembleWord : argField (assembleWord op arg) = arg :=
  (BitVec.extractLsb'_append_eq_of_add_le (by decide)).trans BitVec.extractLsb'_append_eq_right

end

/-- A word put together from OP and ARG is read as the opcode map says (R71, R80). -/
theorem decodeWord_assembleWord {op : BitVec 4} {arg : BitVec 8} {readArg : BitVec 8 → Except DecodeError Instr}
    {i : Instr} (hop : opcodeMap op = some readArg) (harg : readArg arg = .ok i) :
    decodeWord (assembleWord op arg) = .ok i := by
  simp [decodeWord, hop, harg]

/-- A one-bit operand is read back from its ARG (R73). -/
theorem decodeBitArg_setWidth (mk : BitVec 1 → Instr) (b : BitVec 1) : decodeBitArg mk (b.setWidth 8) = .ok (mk b) := by
  rcases bit_cases b with rfl | rfl <;> rfl

/-- The word of a command decodes to that command (R72). -/
theorem decodeWord_encode (i : Instr) : decodeWord (encode i) = .ok i := by
  cases i with
  | rsdec b => exact decodeWord_assembleWord rfl (decodeBitArg_setWidth .rsdec b)
  | crcinit m => exact decodeWord_assembleWord rfl (decodeBitArg_setWidth .crcinit m)
  | _ => exact decodeWord_assembleWord rfl rfl

/-- A command word presented as its number is that word (R70, R77). -/
@[simp] theorem tableWord_toNat (w : CommandWord) : tableWord 16 w.toNat = w := by
  simp [tableWord, Nat.mod_eq_of_lt w.isLt]

/-! ### The step -/

theorem step_of_pending {s : State} {a : HostAction} {rest : List HostAction} (h : s.pending = a :: rest) :
    step s = hostStep a rest s := by
  simp [step, h]

/-- On a core that is not busy a step performs the oldest action (R58). -/
theorem step_of_not_busy {s : State} {a : HostAction} {rest : List HostAction} (h : s.pending = a :: rest)
    (hb : s.busy = false) : step s = perform a { s with pending := rest } := by
  rw [step_of_pending h, hostStep_of_not_busy hb]

/-- An action the busy hazard does not concern is performed in every state (R57, R205). -/
theorem step_of_not_needsIdle {s : State} {a : HostAction} {rest : List HostAction} (h : s.pending = a :: rest)
    (ha : needsIdle a = false) : step s = perform a { s with pending := rest } := by
  rw [step_of_pending h, hostStep]
  simp [ha]

/-- Settles O5: RegRead and the reset event need no idle core. -/
theorem stepPerformsHostActions : Obligations.StepPerformsHostActions := by
  refine fun s a rest h => ⟨step_of_not_busy h, ?_, ?_⟩
  · rintro name rfl
    exact step_of_not_needsIdle h rfl
  · rintro rfl
    exact step_of_not_needsIdle h rfl

theorem step_of_idle {s : State} (h : s.pending = []) : step s = .next s := by
  simp [step, h]

/-- A step whose oldest action issues a legal word is the command's `exec` (R81). -/
theorem step_of_issue {s : State} {w : CommandWord} {rest : List HostAction} {i : Instr}
    (h : s.pending = .issue w :: rest) (hb : s.busy = false) (hw : decodeWord w = .ok i) :
    step s = exec i { s with pending := rest } :=
  (step_of_not_busy h hb).trans (issue_of_legal hw _)

/-- Settles O4: the action performed is the issue of a word that decodes to the command, as the command's own word
does. -/
theorem stepRunsDecodedCommand : Obligations.StepRunsDecodedCommand := by
  refine ⟨fun _ _ _ _ => step_of_issue, fun s i hb => ?_, fun _ => step_of_idle⟩
  have hw : decodeWord (tableWord 16 (encode i).toNat) = .ok i := by rw [tableWord_toNat, decodeWord_encode]
  exact step_of_issue (s := s.withFetchWord 16 (encode i).toNat) rfl hb hw

end Sys2Proof.Machine
end

section
/-! PROOFS. Decoding and encoding (O1, O2, O3), and what issuing a word does: the fault of a word that decodes to no
command (O14, O15), and the completion of every other (O18). -/

namespace Sys2Proof.Machine

/-! ### The fields of a word -/

/-- A word with RSV = 0 is put together from its OP and its ARG (R70). -/
theorem assembleWord_fields {w : CommandWord} (h : rsvField w = 0) : assembleWord (opField w) (argField w) = w := by
  calc assembleWord (opField w) (argField w)
      = opField w ++ (rsvField w ++ argField w) := by rw [h]; rfl
    _ = opField w ++ w.extractLsb' 0 12 :=
        congrArg (opField w ++ ·) (BitVec.extractLsb'_append_extractLsb'_eq_extractLsb' (by decide))
    _ = w.extractLsb' 0 16 := BitVec.extractLsb'_append_extractLsb'_eq_extractLsb' (by decide)
    _ = w := BitVec.extractLsb'_eq_self

theorem extractLsb'_argField (w : CommandWord) : (argField w).extractLsb' 1 7 = w.extractLsb' 1 7 :=
  BitVec.extractLsb'_extractLsb'_of_le (by decide)

/-! ### The four kinds of OP -/

/-- The OP values that select no command (R74). -/
abbrev reservedOps : List Nat := [0x0, 0x7, 0xB, 0xC, 0xD, 0xE, 0xF]

/-- The OP values whose ARG must be zero (R73). -/
abbrev noArgOps : List Nat := [0x1, 0x2, 0x3, 0x5, 0x6, 0xA]

/-- The OP values whose operand is ARG[0] (R73). -/
abbrev bitArgOps : List Nat := [0x4, 0x8]

/-- Every OP is reserved, takes no operand, takes a bit, or is CRCBYTE's (R72 to R74). -/
theorem op_cases : ∀ op : BitVec 4,
    op.toNat ∈ reservedOps ∨ op.toNat ∈ noArgOps ∨ op.toNat ∈ bitArgOps ∨ op = 0x9 := by decide

/-- The reserved OP values are those the opcode map leaves out. -/
theorem opcodeMap_eq_none : ∀ {op : BitVec 4}, opcodeMap op = none ↔ op.toNat ∈ reservedOps := by
  simp only [← Option.isNone_iff_eq_none]
  decide

theorem opcodeMap_noArg {op : BitVec 4} (h : op.toNat ∈ noArgOps) :
    ∃ i, opcodeMap op = some (decodeNoArg i) ∧ encode i = assembleWord op 0 := by
  have hop : op = 0x1 ∨ op = 0x2 ∨ op = 0x3 ∨ op = 0x5 ∨ op = 0x6 ∨ op = 0xA := by revert op; decide
  rcases hop with rfl | rfl | rfl | rfl | rfl | rfl
  exacts [⟨.deint, rfl, rfl⟩, ⟨.viterbi, rfl, rfl⟩, ⟨.descr, rfl, rfl⟩, ⟨.assemble, rfl, rfl⟩, ⟨.decode, rfl, rfl⟩,
    ⟨.crcfin, rfl, rfl⟩]

theorem opcodeMap_bitArg {op : BitVec 4} (h : op.toNat ∈ bitArgOps) :
    ∃ mk, opcodeMap op = some (decodeBitArg mk) ∧ ∀ b, encode (mk b) = assembleWord op (b.setWidth 8) := by
  have hop : op = 0x4 ∨ op = 0x8 := by revert op; decide
  rcases hop with rfl | rfl
  exacts [⟨.rsdec, rfl, fun _ => rfl⟩, ⟨.crcinit, rfl, fun _ => rfl⟩]

/-! ### The operand readers -/

theorem decodeNoArg_eq_ok {i j : Instr} {arg : BitVec 8} (h : decodeNoArg i arg = .ok j) : arg = 0 ∧ i = j := by
  unfold decodeNoArg at h
  split at h
  · next hz => exact ⟨hz, by injection h⟩
  · cases h

/-- An ARG whose bits 7:1 are zero is its bit 0. -/
theorem setWidth_bit_of_high_eq_zero :
    ∀ {arg : BitVec 8}, arg.extractLsb' 1 7 = 0 → arg = (arg.extractLsb' 0 1).setWidth 8 := by decide

theorem decodeBitArg_eq_ok {mk : BitVec 1 → Instr} {arg : BitVec 8} {j : Instr} (h : decodeBitArg mk arg = .ok j) :
    ∃ b, arg = b.setWidth 8 ∧ mk b = j := by
  unfold decodeBitArg at h
  split at h
  · next hz => exact ⟨_, setWidth_bit_of_high_eq_zero hz, by injection h⟩
  · cases h

/-! ### Decoding, outcome by outcome -/

theorem decodeWord_of_reserved_op {w : CommandWord} (h : (opField w).toNat ∈ reservedOps) :
    decodeWord w = .error .illegalOpcode := by
  rw [decodeWord, opcodeMap_eq_none.2 h]

theorem decodeWord_of_opcodeMap {w : CommandWord} {readArg : BitVec 8 → Except DecodeError Instr}
    (h : opcodeMap (opField w) = some readArg) :
    decodeWord w = if rsvField w ≠ 0 then .error .reservedField else readArg (argField w) := by
  rw [decodeWord, h]

/-- A word that decodes has RSV = 0, and its ARG is read as the opcode map says (R80). -/
theorem decodeWord_eq_ok {w : CommandWord} {i : Instr} (h : decodeWord w = .ok i) :
    rsvField w = 0 ∧ ∃ readArg, opcodeMap (opField w) = some readArg ∧ readArg (argField w) = .ok i := by
  cases hmap : opcodeMap (opField w) with
  | none => rw [decodeWord_of_reserved_op (opcodeMap_eq_none.1 hmap)] at h; cases h
  | some readArg =>
    rw [decodeWord_of_opcodeMap hmap] at h
    split at h
    · cases h
    · next hrsv => exact ⟨not_not.1 hrsv, readArg, rfl, h⟩

/-- A word that decodes to a command is that command's word (R72). -/
theorem encode_of_decodeWord {w : CommandWord} {i : Instr} (h : decodeWord w = .ok i) : encode i = w := by
  obtain ⟨hrsv, readArg, hmap, hread⟩ := decodeWord_eq_ok h
  rw [← assembleWord_fields hrsv]
  rcases op_cases (opField w) with hop | hop | hop | hop
  · rw [opcodeMap_eq_none.2 hop] at hmap
    cases hmap
  · obtain ⟨j, hj, hword⟩ := opcodeMap_noArg hop
    cases hj.symm.trans hmap
    obtain ⟨harg, rfl⟩ := decodeNoArg_eq_ok hread
    rw [hword, harg]
  · obtain ⟨mk, hmk, hword⟩ := opcodeMap_bitArg hop
    cases hmk.symm.trans hmap
    obtain ⟨b, harg, rfl⟩ := decodeBitArg_eq_ok hread
    rw [hword, harg]
  · rw [hop] at hmap ⊢
    cases hmap
    cases hread
    rfl

/-- Settles O1: the word of a command is read back, and a word that decodes is put together from the fields read. -/
theorem encodeAndDecodeAgree : Obligations.EncodeAndDecodeAgree :=
  ⟨decodeWord_encode, fun _ _ => encode_of_decodeWord⟩

/-! ### The well-formedness of a word -/

theorem wellFormed_opcode_eq_false {w : CommandWord} :
    WellFormed.opcode w = false ↔ (opField w).toNat ∈ reservedOps := by
  unfold WellFormed.opcode
  change _ ↔ (w.extractLsb' 12 4).toNat ∈ reservedOps
  generalize w.extractLsb' 12 4 = op
  revert op
  decide

theorem wellFormed_opcode_eq_true {w : CommandWord} :
    WellFormed.opcode w = true ↔ (opField w).toNat ∉ reservedOps := by
  rw [← wellFormed_opcode_eq_false, Bool.not_eq_false]

theorem wellFormed_reserved_eq_true {w : CommandWord} : WellFormed.reserved w = true ↔ rsvField w = 0 := beq_iff_eq

theorem wellFormed_reserved_eq_false {w : CommandWord} : WellFormed.reserved w = false ↔ rsvField w ≠ 0 :=
  beq_eq_false_iff_ne

theorem wellFormed_argument_noArg {w : CommandWord} (h : (opField w).toNat ∈ noArgOps) :
    WellFormed.argument w = (argField w == 0) := by
  simp only [opField, List.mem_cons, List.not_mem_nil, or_false] at h
  rcases h with hop | hop | hop | hop | hop | hop <;> (rw [WellFormed.argument, hop]; rfl)

theorem wellFormed_argument_bitArg {w : CommandWord} (h : (opField w).toNat ∈ bitArgOps) :
    WellFormed.argument w = ((argField w).extractLsb' 1 7 == 0) := by
  rw [extractLsb'_argField]
  simp only [opField, List.mem_cons, List.not_mem_nil, or_false] at h
  rcases h with hop | hop <;> (rw [WellFormed.argument, hop]; rfl)

theorem wellFormed_argument_byteArg {w : CommandWord} (h : opField w = 0x9) : WellFormed.argument w = true := by
  unfold opField at h
  rw [WellFormed.argument, h]
  rfl

/-- The reader of a legal OP takes the well-formed ARGs and rejects the others (R73, R75). -/
theorem readArg_wellFormed {w : CommandWord} (h : (opField w).toNat ∉ reservedOps) :
    ∃ readArg, opcodeMap (opField w) = some readArg ∧
      (WellFormed.argument w = true → ∃ i, readArg (argField w) = .ok i) ∧
      (WellFormed.argument w = false → readArg (argField w) = .error .reservedField) := by
  rcases op_cases (opField w) with hop | hop | hop | hop
  · exact absurd hop h
  · obtain ⟨i, hi, -⟩ := opcodeMap_noArg hop
    rw [wellFormed_argument_noArg hop]
    exact ⟨_, hi, fun harg => ⟨i, by simp [decodeNoArg, beq_iff_eq.1 harg]⟩,
      fun harg => if_neg (beq_eq_false_iff_ne.1 harg)⟩
  · obtain ⟨mk, hmk, -⟩ := opcodeMap_bitArg hop
    rw [wellFormed_argument_bitArg hop]
    exact ⟨_, hmk, fun harg => ⟨_, if_pos (beq_iff_eq.1 harg)⟩, fun harg => if_neg (beq_eq_false_iff_ne.1 harg)⟩
  · rw [wellFormed_argument_byteArg hop, hop]
    exact ⟨_, rfl, fun _ => ⟨_, rfl⟩, fun harg => by cases harg⟩

/-- A legal OP with an ill-formed RSV or ARG is rejected as a reserved field (R75, R80). -/
theorem decodeWord_of_ill_formed {w : CommandWord} (hop : (opField w).toNat ∉ reservedOps)
    (h : rsvField w ≠ 0 ∨ WellFormed.argument w = false) : decodeWord w = .error .reservedField := by
  obtain ⟨readArg, hmap, -, hbad⟩ := readArg_wellFormed hop
  rw [decodeWord_of_opcodeMap hmap]
  split
  · rfl
  · next hrsv =>
    have harg := h.resolve_left hrsv
    exact hbad harg

theorem decodeWord_of_wellFormed {w : CommandWord} (h : WellFormed.word w = true) : ∃ i, decodeWord w = .ok i := by
  simp only [WellFormed.word, Bool.and_eq_true] at h
  obtain ⟨⟨hop, hrsv⟩, harg⟩ := h
  obtain ⟨readArg, hmap, hgood, -⟩ := readArg_wellFormed (wellFormed_opcode_eq_true.1 hop)
  rw [decodeWord_of_opcodeMap hmap, if_neg (not_not.2 (wellFormed_reserved_eq_true.1 hrsv))]
  exact hgood harg

/-- Settles O2: an OP is well formed when the opcode map has it, and its reader rejects exactly the ill-formed ARGs. -/
theorem decodeChecksInOrder : Obligations.DecodeChecksInOrder := by
  refine fun w => ⟨fun hop => decodeWord_of_reserved_op (wellFormed_opcode_eq_false.1 hop), fun hop h => ?_,
    decodeWord_of_wellFormed⟩
  exact decodeWord_of_ill_formed (wellFormed_opcode_eq_true.1 hop)
    ((Bool.and_eq_false_iff.1 h).imp_left wellFormed_reserved_eq_false.1)

/-- Settles O3: the legal words are the words of commands; the others have an OP, an ARG and an RSV that is refused. -/
theorem specWordsDecode : Obligations.SpecWordsDecode :=
  ⟨decodeWord_encode .deint, decodeWord_encode .viterbi, decodeWord_encode .descr, decodeWord_encode (.rsdec 0),
    decodeWord_encode (.rsdec 1), decodeWord_encode .assemble, decodeWord_encode .decode,
    decodeWord_encode (.crcinit 0), decodeWord_encode (.crcinit 1), decodeWord_encode (.crcbyte 0xFF),
    decodeWord_encode .crcfin, decodeWord_of_reserved_op (by decide),
    decodeWord_of_ill_formed (by decide) (.inr (by decide)), decodeWord_of_ill_formed (by decide) (.inl (by decide))⟩

/-! ### Issue -/

/-- With FAULT = 0, issuing a word that decodes to no command raises its fault and changes nothing but STATUS. -/
theorem perform_issue_of_illegal {w : CommandWord} {e : DecodeError} (hw : decodeWord w = .error e) {s : State}
    (hf : s.faulted = false) : ∃ st, perform (.issue w) s = .next { s with status := st } ∧
      Status.Faulted (Cause.ofDecodeError e) s.status st := by
  have hnext : rejectWord e s = .next (raiseFault (Cause.ofDecodeError e) (s.onStatus (Status.setDone false))) := by
    simp [rejectWord, hf]
  rcases rejectWord_cases hnext with ⟨hf', -⟩ | ⟨-, st, ht, hst⟩
  · cases hf.symm.trans hf'
  · exact ⟨st, by rw [perform, issue_of_illegal hw, hnext, ht], hst⟩

/-- Settles O14: a reserved OP is an illegal opcode, whatever the other bits. -/
theorem reservedOpcodeFaults : Obligations.ReservedOpcodeFaults :=
  fun _ _ hf hop => perform_issue_of_illegal (decodeWord_of_reserved_op hop) hf

/-- Settles O15: a word whose RSV or must-be-zero ARG bits are not zero is ill formed. -/
theorem reservedFieldFaults : Obligations.ReservedFieldFaults := by
  intro s w hf hop h
  refine perform_issue_of_illegal (decodeWord_of_ill_formed hop (h.imp_right ?_)) hf
  rintro (⟨hno, harg⟩ | ⟨hbit, harg⟩)
  · rw [wellFormed_argument_noArg hno, beq_eq_false_iff_ne]
    exact harg
  · rw [wellFormed_argument_bitArg hbit, beq_eq_false_iff_ne]
    exact harg

/-- Settles O18: a command is its rule inside the wrapper, and no rule writes STATUS. -/
theorem decodedCommandsComplete : Obligations.DecodedCommandsComplete := by
  intro i s hf
  have hdone := status_completed (status_effectOf i) s
  exact ⟨_, by rw [exec_eq, runCommand_of_not_faulted _ hf], hdone.fault.trans hf, hdone⟩

end Sys2Proof.Machine
end

section
/-! PROOFS. The walk of DEINT is the closed form src(k) (O20); from it, what DEINT does not read (O21), and that it
undoes interleaving (O22). -/

namespace Sys2Proof.Machine

/-! ### The closed form src -/

theorem src_eq (k : Nat) : src k = 80 * (k % 65) + 1 + k / 65 := rfl

theorem nextOffset_eq (off : Nat) : nextOffset off = if 5200 ≤ off + 80 then off + 80 - 5199 else off + 80 := rfl

/-- One advance of OFF goes from src(k) to src(k + 1): down one row, or, where the frame length is reached, from the
last row to the top of the next column (R90, R91). -/
theorem nextOffset_src {k : Nat} (hk : k < 5132) : nextOffset (src k) = src (k + 1) := by
  have hwrap : 5200 ≤ src k + 80 ↔ k % 65 = 64 := by rw [src_eq]; omega
  rw [nextOffset_eq]
  by_cases hrow : k % 65 = 64
  · rw [if_pos (hwrap.2 hrow), src_eq, src_eq]
    omega
  · rw [if_neg (mt hwrap.1 hrow), src_eq, src_eq]
    omega

/-- Of the offsets that carry a stream element, src(k) is the one that carries element k (R91, R93). -/
theorem carried_src {k : Nat} (hk : k < 5132) : carried (src k) = some k := by
  have hcol : src k % 80 = k / 65 + 1 := by rw [src_eq]; omega
  have hrow : src k / 80 = k % 65 := by rw [src_eq]; omega
  have hindex : (k / 65 + 1 - 1) * 65 + k % 65 = k := by omega
  simp only [carried, hcol, hrow, hindex]
  exact if_pos ⟨Nat.succ_ne_zero _, hk⟩

theorem src_injective {k₁ k₂ : Nat} (h₁ : k₁ < 5132) (h₂ : k₂ < 5132) (h : src k₁ = src k₂) : k₁ = k₂ :=
  Option.some_injective _ (by rw [← carried_src h₁, ← carried_src h₂, h])

/-- Every offset the walk reads is in the frame, and is none of the 68 that R93 lists. -/
theorem src_carries {k : Nat} (hk : k < 5132) : src k < 5200 ∧ src k % 80 ≠ 0 ∧ src k ∉ [5039, 5119, 5199] := by
  simp only [src_eq, List.mem_cons, List.not_mem_nil, or_false, not_or]
  omega

/-! ### The polarity inversion -/

/-- INV_PHASE is 1: the odd elements are the complemented ones (R92). -/
theorem invert_params (k : Nat) (b : Byte) : invert params k b = if k % 2 = 1 then 255 - b else b := rfl

/-- The inversion is its own inverse (R92). -/
theorem invert_invert (P : Params) (k : Nat) (b : Byte) : invert P k (invert P k b) = b := by
  unfold invert
  split
  · exact sub_sub_cancel 255 b
  · rfl

/-! ### CONV after DEINT -/

/-- The walk from src(k) emits, at its step j, the element RAW[src(k + j)] with the polarity of index k + j. -/
theorem getD_deintWalk (P : Params) (raw : Nat → Byte) {n k j : Nat} (hn : k + n ≤ 5132) (hj : j < n) :
    (deintWalk P raw n k (src k)).getD j 0 = invert P (k + j) (raw (src (k + j))) := by
  induction n generalizing k j with
  | zero => omega
  | succ n ih =>
    rw [deintWalk, nextOffset_src (by omega)]
    cases j with
    | zero => rfl
    | succ j => rw [List.getD_cons_succ, ih (by omega) (by omega), Nat.add_right_comm, Nat.add_assoc]

theorem element_conv_deintEffect (s : State) {k : Nat} (hk : k < 5132) :
    (deintEffect s).element .conv k = invert params k (s.element .raw (src k)) := by
  have hwalk := getD_deintWalk params (s.element .raw) (k := 0) (n := Config.nsym) le_rfl hk
  rw [Nat.zero_add] at hwalk
  rw [deintEffect, State.element_setConv s _ (by rwa [length_deintWalk])]
  exact hwalk

/-- The answer of an unrefused DEINT, and CONV in it (R90, R91). -/
theorem exec_deint_of_not_faulted {s : State} (h : s.faulted = false) :
    exec .deint s = .next ((deintEffect s).onStatus completeStatus) ∧
      ∀ k, k < 5132 → ((deintEffect s).onStatus completeStatus).element .conv k =
        invert params k (s.element .raw (src k)) :=
  ⟨exec_of_not_faulted .deint h, fun k hk => by rw [State.element_onStatus, element_conv_deintEffect s hk]⟩

theorem completed_completeStatus (st : BitVec 8) : Status.Completed st (completeStatus st) := by
  constructor <;> simp [completeStatus]

/-- Settles O20: the walk starts at src(0) = 1 and every advance leads to the next src. -/
theorem deintFollowsClosedForm : Obligations.DeintFollowsClosedForm := by
  intro s hf
  obtain ⟨hexec, hconv⟩ := exec_deint_of_not_faulted hf
  obtain ⟨hpending, hreplies, hepoch⟩ := host_effectOf .deint s
  refine ⟨_, hexec, hconv, ⟨fun sp hsp i => ?_, hpending, hreplies, hepoch⟩, exec_pipeline_crcKept rfl hexec,
    deintEffect_draws s, ?_⟩
  · rw [State.element_onStatus, element_deintEffect_other s (by simpa using hsp)]
  · have hstatus := completed_completeStatus (deintEffect s).status
    rwa [deintEffect_status] at hstatus

/-- Settles O21: none of the offsets src(k) is among those on which the two frames may differ. -/
theorem deintIgnoresUnreadOffsets : Obligations.DeintIgnoresUnreadOffsets := by
  intro s₁ s₂ hf₁ hf₂ hraw
  obtain ⟨hexec₁, hconv₁⟩ := exec_deint_of_not_faulted hf₁
  obtain ⟨hexec₂, hconv₂⟩ := exec_deint_of_not_faulted hf₂
  refine ⟨_, _, hexec₁, hexec₂, fun k hk => ?_⟩
  obtain ⟨hlt, hcol, hrows⟩ := src_carries hk
  rw [hconv₁ k hk, hconv₂ k hk, hraw (src k) hlt hcol hrows]

/-- Settles O22: DEINT inverts each element a second time, and `carried` undoes src. -/
theorem deinterleaveInvertsInterleave : Obligations.DeinterleaveInvertsInterleave := by
  refine ⟨fun s stream hf hraw => ?_, fun _ _ => src_injective⟩
  obtain ⟨hexec, hconv⟩ := exec_deint_of_not_faulted hf
  refine ⟨_, hexec, fun k hk => ?_⟩
  rw [hconv k hk, hraw k hk, ← invert_params, invert_invert]

end Sys2Proof.Machine
end

section
/-! PROOFS. The trellis of VITERBI: every metric is the cost of a path that the traceback recovers, and no path is
cheaper (R111); from it the minimum-cost sequence (O23), the noise-free block (O24), and the bound on the metrics (O25).
The complemented branch symbols (O26) tell two inputs of one step apart. -/

namespace Sys2Proof.Machine

/-! ### Code symbols -/

/-- Folding the exclusive-or over two sequences together folds it over each. -/
theorem foldl_xor_xor (f g : Nat → Bool) (is : List Nat) (a b : Bool) :
    is.foldl (fun p i => p ^^ (f i ^^ g i)) (a ^^ b) =
      (is.foldl (fun p i => p ^^ f i) a ^^ is.foldl (fun p i => p ^^ g i) b) := by
  induction is generalizing a b with
  | nil => rfl
  | cons i is ih =>
    have hstep : ((a ^^ b) ^^ (f i ^^ g i)) = ((a ^^ f i) ^^ (b ^^ g i)) := by
      rw [Bool.xor_assoc, Bool.xor_left_comm b, ← Bool.xor_assoc]
    rw [List.foldl_cons, hstep, ih, List.foldl_cons, List.foldl_cons]

theorem parity_xor {n : Nat} (v w : BitVec n) : parity (v ^^^ w) = (parity v ^^ parity w) := by
  simp only [parity, BitVec.getLsbD_xor]
  exact foldl_xor_xor v.getLsbD w.getLsbD _ false false

/-- Symbols are linear in the register (R101). -/
theorem codeSymbol_xor (mask : BitVec 7) (r q : Nat) :
    codeSymbol mask (r ^^^ q) = (codeSymbol mask r ^^ codeSymbol mask q) := by
  have hmask : BitVec.ofNat 7 (r ^^^ q) &&& mask = (BitVec.ofNat 7 r &&& mask) ^^^ (BitVec.ofNat 7 q &&& mask) := by
    ext i hi
    simp [Bool.and_xor_distrib_right]
  rw [codeSymbol, hmask, parity_xor, codeSymbol, codeSymbol]

theorem codeSymbol_xor_tap {mask : BitVec 7} {q : Nat} (h : codeSymbol mask q = true) (r : Nat) :
    codeSymbol mask (r ^^^ q) = !codeSymbol mask r := by rw [codeSymbol_xor, h, Bool.xor_true]

/-- Settles O26: symbols are linear in the register, and both masks tap bits 0 and 6. -/
theorem branchSymbolsAreComplemented : Obligations.BranchSymbolsAreComplemented := fun r _ =>
  ⟨codeSymbol_xor_tap (by decide) r, codeSymbol_xor_tap (by decide) r, codeSymbol_xor_tap (by decide) r,
    codeSymbol_xor_tap (by decide) r⟩

/-! ### The branches of the trellis are the steps of the encoder -/

theorem encoderStep_snd_lt (P : Params) (S : Nat) (u : Bool) : (encoderStep P S u).2 < 64 :=
  Nat.lt_of_le_of_lt Nat.and_le_right (by decide)

/-- The next state holds the step's input in bit 0 and the bits 0 to 4 of the old state above it (R101). -/
theorem testBit_encoderStep_snd_zero (P : Params) (S : Nat) (u : Bool) : (encoderStep P S u).2.testBit 0 = u := by
  cases u <;> simp [encoderStep]

theorem testBit_encoderStep_snd_succ (P : Params) (S : Nat) (u : Bool) {i : Nat} (hi : i < 5) :
    (encoderStep P S u).2.testBit (i + 1) = S.testBit i := by
  have hmask : (0x3F : Nat).testBit (i + 1) = true := by interval_cases i <;> rfl
  have hinput : u.toNat.testBit (i + 1) = false := by cases u <;> simp [Nat.testBit_succ]
  simp [encoderStep, hmask, hinput]

theorem pred_lt {s : Nat} (hs : s < 64) (j : Bool) : pred s j.toNat < 64 := by
  revert s j
  decide

/-- On the branch from `pred s j` to s the input is bit 0 of s and the register is `branchReg s j` (R102). -/
theorem pred_register : ∀ s, s < 64 → ∀ j : Bool,
    (pred s j.toNat <<< 1) ||| (s.testBit 0).toNat = branchReg s j.toNat ∧ branchReg s j.toNat &&& 0x3F = s := by
  decide

/-- Every step of the encoder is a branch: from S it leads to the state over its predecessor `S[5]` (R102). -/
theorem pred_encoderStep (P : Params) {S : Nat} (hS : S < 64) (u : Bool) :
    pred (encoderStep P S u).2 (S.testBit 5).toNat = S := by
  have hbranch : ∀ S, S < 64 → ∀ u : Bool, pred (((S <<< 1) ||| u.toNat) &&& 0x3F) (S.testBit 5).toNat = S := by
    decide
  exact hbranch S hS u

theorem encoderStep_pred (P : Params) {s : Nat} (hs : s < 64) (j : Bool) :
    encoderStep P (pred s j.toNat) (s.testBit 0) =
      ((codeSymbol P.polyA (branchReg s j.toNat), codeSymbol P.polyB (branchReg s j.toNat)), s) := by
  obtain ⟨hreg, hnext⟩ := pred_register s hs j
  simp only [encoderStep, hreg, hnext]

/-! ### Paths and their costs -/

/-- The state in which an input sequence leaves the encoder (R101). -/
def pathEnd (P : Params) (S : Nat) (u : List Bool) : Nat := u.foldl (fun S b => (encoderStep P S b).2) S

/-- The distance of one step's soft bits from the symbols the encoder emits (R103). -/
def stepCost (P : Params) (x : Byte × Byte) (S : Nat) (u : Bool) : Nat :=
  softDist x.1 (encoderStep P S u).1.1 + softDist x.2 (encoderStep P S u).1.2

/-- The cost of an input sequence from a state, step by step (R111). -/
def pathCost (P : Params) : (S : Nat) → (u : List Bool) → (xs : List (Byte × Byte)) → Nat
  | S, u :: us, x :: xs => stepCost P x S u + pathCost P (encoderStep P S u).2 us xs
  | _, _, _ => 0

theorem pathEnd_cons (P : Params) (S : Nat) (b : Bool) (u : List Bool) :
    pathEnd P S (b :: u) = pathEnd P (encoderStep P S b).2 u := rfl

theorem pathEnd_concat (P : Params) (S : Nat) (u : List Bool) (b : Bool) :
    pathEnd P S (u ++ [b]) = (encoderStep P (pathEnd P S u) b).2 := by simp [pathEnd]

theorem stepCost_pred (P : Params) (x : Byte × Byte) {s : Nat} (hs : s < 64) (j : Bool) :
    stepCost P x (pred s j.toNat) (s.testBit 0) = branchMetric P x.1 x.2 s j.toNat := by
  rw [stepCost, encoderStep_pred P hs, branchMetric]

theorem stepCost_le (P : Params) (x : Byte × Byte) (S : Nat) (u : Bool) : stepCost P x S u ≤ 510 := by
  have hdist (b : Byte) (c : Bool) : softDist b c ≤ 255 := Nat.le_of_lt_succ (BitVec.isLt _)
  exact Nat.add_le_add (hdist ..) (hdist ..)

theorem pathCost_le (P : Params) (S : Nat) (u : List Bool) (xs : List (Byte × Byte)) :
    pathCost P S u xs ≤ 510 * xs.length := by
  induction xs generalizing S u with
  | nil => cases u <;> simp [pathCost]
  | cons x xs ih =>
    cases u with
    | nil => simp [pathCost]
    | cons b u =>
      have hstep := stepCost_le P x S b
      have hrest := ih (encoderStep P S b).2 u
      rw [pathCost, List.length_cons]
      omega

/-- `cost` sums over the symbols, `pathCost` over the steps (R111, R26). -/
theorem sum_convEncode_eq_pathCost (P : Params) (S : Nat) (u : List Bool) (conv : Nat → Byte) :
    ((convEncode P S u).mapIdx fun k c => softDist (conv k) c).sum =
      pathCost P S u ((List.range u.length).map fun t => (conv (2 * t), conv (2 * t + 1))) := by
  induction u generalizing S conv with
  | nil => rfl
  | cons b u ih =>
    have hrest := ih (encoderStep P S b).2 fun k => conv (k + 2)
    simp only [convEncode, List.mapIdx_cons, List.sum_cons, List.length_cons, List.range_succ_eq_map, List.map_cons,
      List.map_map, pathCost, stepCost, Nat.add_assoc]
    exact congrArg _ (congrArg _ hrest)

theorem cost_eq_pathCost (P : Params) (conv : Nat → Byte) {u : List Bool} (hu : u.length = 2566) :
    cost P conv u = pathCost P 0 u (softPairs conv) := by
  rw [cost, enc, sum_convEncode_eq_pathCost, hu, softPairs]

/-! ### The six tail zeros -/

/-- The last six inputs are the bits of the state, newest in bit 0 (R101). -/
theorem testBit_pathEnd (P : Params) (S : Nat) (u : List Bool) {i : Nat} (hi : i < 6) (hlen : i < u.length) :
    (pathEnd P S u).testBit i = u.getD (u.length - 1 - i) false := by
  induction u using List.reverseRecOn generalizing i with
  | nil => cases hlen
  | append_singleton u b ih =>
    rw [pathEnd_concat]
    rw [List.length_append, List.length_singleton] at hlen ⊢
    cases i with
    | zero =>
      rw [testBit_encoderStep_snd_zero]
      simp
    | succ i =>
      rw [testBit_encoderStep_snd_succ P _ b (by omega), ih (by omega) (by omega),
        List.getD_append _ _ _ _ (by omega), show u.length + 1 - 1 - (i + 1) = u.length - 1 - i by omega]

theorem pathEnd_lt (P : Params) {S : Nat} (hS : S < 64) (u : List Bool) : pathEnd P S u < 64 := by
  induction u generalizing S with
  | nil => exact hS
  | cons b u ih => exact ih (encoderStep_snd_lt P S b)

/-- U is the set of the sequences that lead the encoder back to state 0 (R111). -/
theorem inputSequence_iff (P : Params) {u : List Bool} : InputSequence u ↔ u.length = 2566 ∧ pathEnd P 0 u = 0 := by
  refine and_congr_right fun hlen => ?_
  have hlen : u.length = 2566 := hlen
  have hbit {i : Nat} (hi : i < 6) : (pathEnd P 0 u).testBit i = u.getD (2565 - i) false := by
    rw [testBit_pathEnd P 0 u hi (by omega), hlen]
  constructor
  · intro htail
    refine Nat.eq_of_testBit_eq fun i => ?_
    rw [Nat.zero_testBit]
    by_cases hi : i < 6
    · rw [hbit hi]
      exact htail _ (by change 2560 ≤ _; omega) (by change _ < 2566; omega)
    · exact Nat.testBit_lt_two_pow (Nat.lt_of_lt_of_le (pathEnd_lt P (by decide) u)
        (Nat.pow_le_pow_right (n := 2) (i := 6) (by decide) (by omega)))
  · intro hend t (hlo : 2560 ≤ t) (hhi : t < 2566)
    rw [show t = 2565 - (2565 - t) by omega, ← hbit (by omega), hend, Nat.zero_testBit]

/-! ### Add-compare-select -/

/-- The new metric is that of the selected candidate (R105). -/
theorem acs_fst_eq (P : Params) (pm : List Nat) (x : Byte × Byte) (s : Nat) :
    (acs P pm x.1 x.2 s).1 = pm.getD (pred s (acs P pm x.1 x.2 s).2.toNat) metricInf +
      branchMetric P x.1 x.2 s (acs P pm x.1 x.2 s).2.toNat := by
  simp only [acs]
  split <;> rfl

/-- Whatever the tie rule, the selected candidate is not the larger one. -/
theorem selectsUpper_cases (tie : TieRule) (c0 c1 : Nat) :
    selectsUpper tie c0 c1 = true ∧ c1 ≤ c0 ∨ selectsUpper tie c0 c1 = false ∧ c0 ≤ c1 := by
  cases tie <;> simp only [selectsUpper, decide_eq_true_eq, decide_eq_false_iff_not] <;> omega

/-- The new metric exceeds neither candidate (R105). -/
theorem acs_fst_le (P : Params) (pm : List Nat) (x : Byte × Byte) (s : Nat) (j : Bool) :
    (acs P pm x.1 x.2 s).1 ≤ pm.getD (pred s j.toNat) metricInf + branchMetric P x.1 x.2 s j.toNat := by
  obtain ⟨hsel, hle⟩ | ⟨hsel, hle⟩ :=
    selectsUpper_cases P.tie (pm.getD (pred s 0) metricInf + branchMetric P x.1 x.2 s 0)
      (pm.getD (pred s 1) metricInf + branchMetric P x.1 x.2 s 1)
  all_goals simp only [acs, hsel]
  · cases j with
    | false => exact hle
    | true => exact le_rfl
  · cases j with
    | false => exact le_rfl
    | true => exact hle

theorem getD_map_acsStep {α : Type} (P : Params) (pm : List Nat) (x : Byte × Byte) (f : Nat × Bool → α) {s : Nat}
    (hs : s < 64) (d : α) : ((acsStep P pm x).map f).getD s d = f (acs P pm x.1 x.2 s) := by
  simp [acsStep, List.getD_eq_getElem?_getD, hs]

/-! ### The run over all steps -/

/-- The final metric of a path's end is at most the path's initial metric and cost. -/
theorem acsRun_metric_le (P : Params) (xs : List (Byte × Byte)) (pm : List Nat) (decn : List (List Bool)) {S : Nat}
    (hS : S < 64) {u : List Bool} (hlen : u.length = xs.length) :
    (acsRun P xs pm decn).1.getD (pathEnd P S u) metricInf ≤ pm.getD S metricInf + pathCost P S u xs := by
  induction xs generalizing pm decn S u with
  | nil =>
    obtain rfl := List.length_eq_zero_iff.1 hlen
    exact Nat.le_refl _
  | cons x xs ih =>
    obtain ⟨b, u, rfl⟩ := List.exists_cons_of_length_eq_add_one hlen
    have hnext := encoderStep_snd_lt P S b
    have hrest := ih ((acsStep P pm x).map Prod.fst) ((acsStep P pm x).map Prod.snd :: decn) hnext
      (Nat.succ_injective hlen)
    have hstep := acs_fst_le P pm x (encoderStep P S b).2 (S.testBit 5)
    have hbranch := stepCost_pred P x hnext (S.testBit 5)
    rw [getD_map_acsStep P pm x Prod.fst hnext] at hrest
    rw [testBit_encoderStep_snd_zero] at hbranch
    rw [← hbranch, pred_encoderStep P hS] at hstep
    rw [pathEnd_cons, pathCost, ← Nat.add_assoc]
    exact hrest.trans (Nat.add_le_add_right hstep _)

/-- The path u from state S is the survivor of state e: it ends there, e's final metric is its initial metric and cost,
and the traceback from e recovers it (R105, R108). -/
structure Survivor (P : Params) (xs : List (Byte × Byte)) (pm : List Nat) (decn : List (List Bool)) (e S : Nat)
    (u : List Bool) : Prop where
  start  : S < 64
  length : u.length = xs.length
  ends   : pathEnd P S u = e
  metric : (acsRun P xs pm decn).1.getD e metricInf = pm.getD S metricInf + pathCost P S u xs
  traced : ∀ ubit, traceback (acsRun P xs pm decn).2 e ubit = traceback decn S (u ++ ubit)

/-- A survivor of the later steps goes on backwards over the branch the first step's decision names. -/
theorem Survivor.cons {P : Params} {x : Byte × Byte} {xs : List (Byte × Byte)} {pm : List Nat}
    {decn : List (List Bool)} {e S : Nat} {u : List Bool}
    (h : Survivor P xs ((acsStep P pm x).map Prod.fst) ((acsStep P pm x).map Prod.snd :: decn) e S u) :
    Survivor P (x :: xs) pm decn e (pred S (acs P pm x.1 x.2 S).2.toNat) (S.testBit 0 :: u) where
  start := pred_lt h.start _
  length := by rw [List.length_cons, h.length, List.length_cons]
  ends := by rw [pathEnd_cons, encoderStep_pred P h.start, h.ends]
  metric := by
    rw [acsRun, h.metric, getD_map_acsStep P pm x Prod.fst h.start, acs_fst_eq, pathCost, stepCost_pred P x h.start,
      encoderStep_pred P h.start, Nat.add_assoc]
  traced ubit := by
    rw [acsRun, h.traced, traceback, getD_map_acsStep P pm x Prod.snd h.start]
    rfl

theorem exists_survivor (P : Params) (xs : List (Byte × Byte)) (pm : List Nat) (decn : List (List Bool)) {e : Nat}
    (he : e < 64) : ∃ S u, Survivor P xs pm decn e S u := by
  induction xs generalizing pm decn with
  | nil => exact ⟨e, [], he, rfl, rfl, rfl, fun _ => rfl⟩
  | cons x xs ih =>
    obtain ⟨S, u, h⟩ := ih ((acsStep P pm x).map Prod.fst) ((acsStep P pm x).map Prod.snd :: decn)
    exact ⟨_, _, h.cons⟩

theorem getD_initialMetrics {S : Nat} (hS : S < 64) : initialMetrics.getD S metricInf = if S = 0 then 0 else 2 ^ 24 := by
  cases S with
  | zero => rfl
  | succ S => exact List.getD_replicate _ (Nat.lt_of_succ_lt_succ hS)

/-- Settles O25: a metric is an initial metric and the cost of at most 2566 steps, each at most 510. -/
theorem pathMetricsStayBelowBound : Obligations.PathMetricsStayBelowBound := by
  intro xs hxs m hm
  obtain ⟨e, he, rfl⟩ := List.getElem_of_mem hm
  have he64 : e < 64 := by rwa [length_acsRun_metrics _ _ _ _ length_initialMetrics] at he
  obtain ⟨S, u, h⟩ := exists_survivor params xs initialMetrics [] he64
  have hinit : initialMetrics.getD S metricInf ≤ 2 ^ 24 := by
    rw [getD_initialMetrics h.start]
    split <;> omega
  have hcost := pathCost_le params S u xs
  rw [← List.getD_eq_getElem _ metricInf he, h.metric]
  omega

/-! ### The sequence VITERBI recovers -/

/-- A path from state 0 back to it costs less than INF, so the survivor of state 0 starts there (R104, R108). -/
theorem survivor_viterbiBits (P : Params) (conv : Nat → Byte) :
    Survivor P (softPairs conv) initialMetrics [] 0 0 (viterbiBits P conv) := by
  obtain ⟨S, u, h⟩ := exists_survivor P (softPairs conv) initialMetrics [] (e := 0) (by decide)
  have hbits : viterbiBits P conv = u := (h.traced []).trans (List.append_nil u)
  have hzeros : InputSequence (List.replicate 2566 false) :=
    ⟨List.length_replicate, fun _ _ ht => List.getD_replicate _ ht⟩
  have hle := acsRun_metric_le P (softPairs conv) initialMetrics [] (S := 0) (by decide)
    (hzeros.1.trans (length_softPairs conv).symm)
  have hcost := pathCost_le P 0 (List.replicate 2566 false) (softPairs conv)
  rw [((inputSequence_iff P).1 hzeros).2, h.metric, getD_initialMetrics h.start, getD_initialMetrics (by decide),
    if_pos rfl] at hle
  rw [length_softPairs] at hcost
  have hS : S = 0 := by
    by_contra hne
    rw [if_neg hne] at hle
    omega
  subst hS
  rwa [hbits]

theorem inputSequence_viterbiBits (P : Params) (conv : Nat → Byte) : InputSequence (viterbiBits P conv) :=
  (inputSequence_iff P).2 ⟨length_viterbiBits P conv, (survivor_viterbiBits P conv).ends⟩

/-- The final metric of state 0 is the cost of the recovered bits (R111). -/
theorem finalMetric_eq_cost (P : Params) (conv : Nat → Byte) :
    (acsRun P (softPairs conv) initialMetrics []).1.getD 0 metricInf = cost P conv (viterbiBits P conv) := by
  rw [(survivor_viterbiBits P conv).metric, cost_eq_pathCost P conv (length_viterbiBits P conv)]
  exact Nat.zero_add _

theorem cost_viterbiBits_le (P : Params) (conv : Nat → Byte) {v : List Bool} (hv : InputSequence v) :
    cost P conv (viterbiBits P conv) ≤ cost P conv v := by
  obtain ⟨hlen, hend⟩ := (inputSequence_iff P).1 hv
  have hle := acsRun_metric_le P (softPairs conv) initialMetrics [] (S := 0) (by decide)
    (hlen.trans (length_softPairs conv).symm)
  rw [hend, finalMetric_eq_cost, ← cost_eq_pathCost P conv hlen, getD_initialMetrics (by decide)] at hle
  simpa using hle

/-! ### Noise-free input -/

theorem softDist_eq_zero {x : Byte} {c : Bool} : softDist x c = 0 ↔ x = softImage c := by
  rw [softDist, softImage, ← BitVec.xor_eq_zero_iff]
  exact BitVec.toNat_inj (y := 0#8)

theorem softDist_zero_inj {x : Byte} {c c' : Bool} (h : softDist x c = 0) (h' : softDist x c' = 0) : c = c' := by
  have himage : softImage c = softImage c' := (softDist_eq_zero.1 h).symm.trans (softDist_eq_zero.1 h')
  cases c <;> cases c' <;> simp_all [softImage]

/-- The two inputs of one step emit different first symbols (R111: POLYA has bit 0 set). -/
theorem encoderStep_symbol_inj {S : Nat} (hS : S < 64) {b b' : Bool}
    (h : (encoderStep params S b).1.1 = (encoderStep params S b').1.1) : b = b' := by
  have hregs : ∀ S, S < 64 → ((S <<< 1) ||| 0) < 128 ∧ ((S <<< 1) ||| 0) ^^^ 1 = (S <<< 1) ||| 1 := by decide
  obtain ⟨hlt, hreg⟩ := hregs S hS
  obtain ⟨hne, -⟩ := branchSymbolsAreComplemented _ hlt
  rw [hreg] at hne
  cases b <;> cases b' <;> simp_all [encoderStep]

/-- At most one sequence fits a stream without any distance. -/
theorem pathCost_zero_inj {S : Nat} (hS : S < 64) {u v : List Bool} {xs : List (Byte × Byte)}
    (hu : u.length = xs.length) (hv : v.length = xs.length) (hcu : pathCost params S u xs = 0)
    (hcv : pathCost params S v xs = 0) : u = v := by
  induction xs generalizing S u v with
  | nil => rw [List.length_eq_zero_iff.1 hu, List.length_eq_zero_iff.1 hv]
  | cons x xs ih =>
    obtain ⟨b, u, rfl⟩ := List.exists_cons_of_length_eq_add_one hu
    obtain ⟨b', v, rfl⟩ := List.exists_cons_of_length_eq_add_one hv
    simp only [pathCost, stepCost, Nat.add_eq_zero_iff] at hcu hcv
    obtain ⟨⟨hbu, -⟩, hcu⟩ := hcu
    obtain ⟨⟨hbv, -⟩, hcv⟩ := hcv
    obtain rfl := encoderStep_symbol_inj hS (softDist_zero_inj hbu hbv)
    rw [ih (encoderStep_snd_lt params S b) (Nat.succ_injective hu) (Nat.succ_injective hv) hcu hcv]

theorem length_convEncode (P : Params) (S : Nat) (u : List Bool) : (convEncode P S u).length = 2 * u.length := by
  induction u generalizing S with
  | nil => rfl
  | cons b u ih => simp [convEncode, ih]; omega

theorem cost_eq_zero_of_noiseFree (P : Params) {conv : Nat → Byte} {v : List Bool} (hv : v.length = 2566)
    (hconv : ∀ k, k < 5132 → conv k = softImage ((enc P v).getD k false)) : cost P conv v = 0 := by
  refine List.sum_eq_zero fun d hd => ?_
  obtain ⟨k, hk, rfl⟩ := List.mem_mapIdx.1 hd
  have hk5132 : k < 5132 := by
    rw [enc, length_convEncode, hv] at hk
    exact hk
  rw [softDist_eq_zero, hconv k hk5132, List.getD_eq_getElem _ _ hk]

/-- The sequence itself costs nothing, so the recovered one of minimum cost costs nothing either (R111). -/
theorem viterbiBits_of_noiseFree {conv : Nat → Byte} {v : List Bool} (hv : InputSequence v)
    (hconv : ∀ k, k < 5132 → conv k = softImage ((enc params v).getD k false)) : viterbiBits params conv = v := by
  have hlen : v.length = 2566 := hv.1
  have hcv := cost_eq_zero_of_noiseFree params hlen hconv
  have hcu : cost params conv (viterbiBits params conv) = 0 :=
    Nat.le_zero.1 (hcv ▸ cost_viterbiBits_le params conv hv)
  rw [cost_eq_pathCost params conv hlen] at hcv
  rw [cost_eq_pathCost params conv (length_viterbiBits params conv)] at hcu
  exact pathCost_zero_inj (by decide) (by simp) (by simp [hlen]) hcu hcv

/-! ### DEC after VITERBI -/

/-- The earliest of the eight bits is bit 7 (R109). -/
theorem getLsbD_packByte (bits : List Bool) {i : Nat} (hi : i < 8) :
    (packByte bits).getLsbD (7 - i) = bits.getD i false := by
  have hbyte : ∀ b0 b1 b2 b3 b4 b5 b6 b7 : Bool, ∀ i, i < 8 →
      (packByte [b0, b1, b2, b3, b4, b5, b6, b7]).getLsbD (7 - i) = [b0, b1, b2, b3, b4, b5, b6, b7].getD i false := by
    decide
  have h := hbyte (bits.getD 0 false) (bits.getD 1 false) (bits.getD 2 false) (bits.getD 3 false) (bits.getD 4 false)
    (bits.getD 5 false) (bits.getD 6 false) (bits.getD 7 false) i hi
  refine Eq.trans ?_ (h.trans ?_)
  · rfl
  · interval_cases i <;> rfl

theorem element_dec_viterbiEffect (s : State) {j : Nat} (hj : j < 320) :
    (viterbiEffect s).element .dec j = packByte (((viterbiBits params (s.element .conv)).drop (8 * j)).take 8) := by
  rw [viterbiEffect, State.element_setDec s _ (by rwa [length_packBits])]
  simp [packBits, List.getD_eq_getElem?_getD, hj]

/-- The answer of an unrefused VITERBI, and the bits of DEC in it (R109). -/
theorem exec_viterbi_of_not_faulted {s : State} (h : s.faulted = false) :
    exec .viterbi s = .next ((viterbiEffect s).onStatus completeStatus) ∧
      ∀ j, j < 320 → ∀ i, i < 8 → (((viterbiEffect s).onStatus completeStatus).element .dec j).getLsbD (7 - i) =
        (viterbiBits params (s.element .conv)).getD (8 * j + i) false := by
  refine ⟨exec_of_not_faulted .viterbi h, fun j hj i hi => ?_⟩
  rw [State.element_onStatus, element_dec_viterbiEffect s hj, getLsbD_packByte _ hi]
  simp [List.getD_eq_getElem?_getD, hi]

/-- Settles O23: the recovered bits are the survivor of state 0, and no sequence of U is cheaper. -/
theorem viterbiReturnsMinimumCostSequence : Obligations.ViterbiReturnsMinimumCostSequence := by
  intro s hf
  obtain ⟨hexec, hdec⟩ := exec_viterbi_of_not_faulted hf
  obtain ⟨hpending, hreplies, hepoch⟩ := host_effectOf .viterbi s
  have hlen := length_acsRun_metrics params (softPairs (s.element .conv)) initialMetrics [] length_initialMetrics
  have hmetric := finalMetric_eq_cost params (s.element .conv)
  have hstatus := completed_completeStatus (viterbiEffect s).status
  rw [List.getD_eq_getElem _ _ (by omega)] at hmetric
  rw [viterbiEffect_status] at hstatus
  refine ⟨_, _, hexec, rfl, inputSequence_viterbiBits params _, fun v => cost_viterbiBits_le params _,
    (List.getD_eq_getElem _ _ (by omega)).trans hmetric, fun v => viterbiBits_of_noiseFree, hdec,
    ⟨fun sp hsp i => ?_, hpending, hreplies, hepoch⟩, exec_pipeline_crcKept rfl hexec, viterbiEffect_draws s, hstatus⟩
  rw [State.element_onStatus, element_viterbiEffect_other s (by simpa using hsp)]

/-! ### Blocks of bytes -/

theorem length_serialise (bs : List Byte) : (serialise bs).length = 8 * bs.length := by
  induction bs with
  | nil => rfl
  | cons b bs ih =>
    rw [serialise] at ih
    simp [serialise, ih]
    omega

theorem serialise_cons (b : Byte) (bs : List Byte) :
    serialise (b :: bs) = (List.range 8).map (fun i => b.getLsbD (7 - i)) ++ serialise bs := rfl

/-- Bit 7 - i of byte j is the serial bit 8j + i (R109). -/
theorem getD_serialise {bs : List Byte} {j i : Nat} (hj : j < bs.length) (hi : i < 8) :
    (serialise bs).getD (8 * j + i) false = (bs.getD j 0).getLsbD (7 - i) := by
  induction bs generalizing j with
  | nil => cases hj
  | cons b bs ih =>
    rw [serialise_cons]
    cases j with
    | zero =>
      rw [List.getD_append _ _ _ _ (by simpa using hi)]
      simp [List.getD_eq_getElem?_getD, hi]
    | succ j =>
      rw [List.getD_append_right _ _ _ _ (by simp; omega), List.getD_cons_succ, ← ih (Nat.lt_of_succ_lt_succ hj)]
      congr 1
      simp
      omega

theorem inputSequence_withTail {block : List Byte} (h : block.length = 320) : InputSequence (withTail block) := by
  have hlen := length_serialise block
  refine ⟨by simp [withTail, hlen, h, Config.ntail, Config.nstep], fun t (hlo : 2560 ≤ t) (hhi : t < 2566) => ?_⟩
  rw [withTail, List.getD_append_right _ _ _ _ (by omega)]
  exact List.getD_replicate _ (by change _ < 6; omega)

/-- Settles O24: the block's sequence is recovered exactly (O23), and packing undoes serialising. -/
theorem viterbiDecodesNoiseFreeBlock : Obligations.ViterbiDecodesNoiseFreeBlock := by
  intro s block hf hblock hconv
  obtain ⟨hexec, hdec⟩ := exec_viterbi_of_not_faulted hf
  have hbits := viterbiBits_of_noiseFree (inputSequence_withTail hblock) hconv
  refine ⟨_, hexec, fun j hj => BitVec.eq_of_getLsbD_eq fun k hk => ?_⟩
  have hserial : 8 * j + (7 - k) < (serialise block).length := by rw [length_serialise]; omega
  have hbit := hdec j hj (7 - k) (by omega)
  rw [hbits, withTail, List.getD_append _ _ _ _ hserial, getD_serialise (by omega) (by omega),
    show 7 - (7 - k) = k by omega] at hbit
  exact hbit

end Sys2Proof.Machine
end

section
/-! PROOFS. DESCR descrambles DEC and deals it by position parity (O27), which undoes scramble-and-merge (O28); the
scrambler table is what the shift register puts out, and has its period (O29). -/

namespace Sys2Proof.Machine

/-! ### RS[0] and RS[1] after DESCR -/

/-- Byte j of the first half is the byte at position 2j, and of the second half the byte at position 2j + 1 (R120). -/
theorem getD_deal (vs : List Byte) (j : Nat) :
    (deal vs).1.getD j 0 = vs.getD (2 * j) 0 ∧ (deal vs).2.getD j 0 = vs.getD (2 * j + 1) 0 := by
  match vs, j with
  | [], _ => exact ⟨rfl, rfl⟩
  | [_], 0 => exact ⟨rfl, rfl⟩
  | [_], _ + 1 => exact ⟨rfl, rfl⟩
  | _ :: _ :: _, 0 => exact ⟨rfl, rfl⟩
  | _ :: _ :: vs, j + 1 => exact getD_deal vs j

theorem getD_descramble (P : Params) (dec : Nat → Byte) {i : Nat} (hi : i < 320) :
    (descramble P dec).getD i 0 = dec i ^^^ scrByte P i := by
  simp [descramble, List.getD_eq_getElem?_getD, hi]

/-- R124, for both blocks at once. -/
theorem element_block_descrEffect_eq_xor (s : State) (b : BitVec 1) {j : Nat} (hj : j < 160) :
    (descrEffect s).element (blockSpace b) j =
      s.element .dec (2 * j + b.toNat) ^^^ scrByte params (2 * j + b.toNat) := by
  obtain ⟨heven, hodd⟩ := getD_deal (descramble params (s.element .dec)) j
  rw [element_block_descrEffect s b hj, heven, hodd]
  rcases bit_cases b with rfl | rfl
  · exact getD_descramble params _ (by omega)
  · exact getD_descramble params _ (by omega)

/-- The answer of an unrefused DESCR, and both blocks in it (R120, R124). -/
theorem exec_descr_of_not_faulted {s : State} (h : s.faulted = false) :
    exec .descr s = .next ((descrEffect s).onStatus completeStatus) ∧
      ∀ (b : BitVec 1) (j : Nat), j < 160 → ((descrEffect s).onStatus completeStatus).element (blockSpace b) j =
        s.element .dec (2 * j + b.toNat) ^^^ scrByte params (2 * j + b.toNat) :=
  ⟨exec_of_not_faulted .descr h, fun b j hj => by
    rw [State.element_onStatus, element_block_descrEffect_eq_xor s b hj]⟩

/-- Settles O27: dealing takes the even and the odd positions of the descrambled block. -/
theorem descrSplitsByParity : Obligations.DescrSplitsByParity := by
  intro s hf
  obtain ⟨hexec, hblocks⟩ := exec_descr_of_not_faulted hf
  obtain ⟨hpending, hreplies, hepoch⟩ := host_effectOf .descr s
  refine ⟨_, hexec, fun j hj => ⟨hblocks 0 j hj, hblocks 1 j hj⟩, ⟨fun sp hsp i => ?_, hpending, hreplies, hepoch⟩,
    exec_pipeline_crcKept rfl hexec, descrEffect_draws s, ?_⟩
  · obtain ⟨h0, h1⟩ : sp ≠ .rs0 ∧ sp ≠ .rs1 := by simpa using hsp
    rw [State.element_onStatus, element_descrEffect_other s h0 h1]
  · have hstatus := completed_completeStatus (descrEffect s).status
    rwa [descrEffect_status] at hstatus

/-! ### The transmitter's scramble-and-merge -/

/-- Word b stands, scrambled, in the positions 2j + b of the merge (R125). -/
theorem getD_scrambleMerge (P : Params) (c0 c1 : List Byte) (b : BitVec 1) {j : Nat} (hj : j < 160) :
    (scrambleMerge P c0 c1).getD (2 * j + b.toNat) 0 =
      (if b = 0 then c0 else c1).getD j 0 ^^^ scrByte P (2 * j + b.toNat) := by
  have hb : b.toNat < 2 := b.isLt
  have hlt : 2 * j + b.toNat < 320 := by omega
  have hdiv : (2 * j + b.toNat) / 2 = j := by omega
  have hbit : ∀ b : BitVec 1, b.toNat % 2 = 0 ↔ b = 0 := by decide
  simp [scrambleMerge, List.getD_eq_getElem?_getD, hlt, hdiv, hbit]

/-- A block whose elements are those of a word is that word. -/
theorem State.block_eq_of_elements {s : State} {b : BitVec 1} {c : List Byte} (hlen : c.length = 160)
    (h : ∀ j, j < 160 → s.element (blockSpace b) j = c.getD j 0) : s.block b = c := by
  refine List.ext_getElem (by simp [hlen]) fun j hj hj' => ?_
  simp [State.block, State.bytes, h j (hlen ▸ hj'), hj']

/-- Settles O28: the same scrambler byte is added twice to each byte of a word. -/
theorem descrInvertsScrambleMerge : Obligations.DescrInvertsScrambleMerge := by
  intro s c0 c1 hf hlen0 hlen1 hdec
  obtain ⟨hexec, hblocks⟩ := exec_descr_of_not_faulted hf
  have hwords : ∀ (b : BitVec 1) (j : Nat), j < 160 →
      ((descrEffect s).onStatus completeStatus).element (blockSpace b) j = (if b = 0 then c0 else c1).getD j 0 := by
    intro b j hj
    have hb : b.toNat < 2 := b.isLt
    rw [hblocks b j hj, hdec _ (by omega), getD_scrambleMerge params c0 c1 b hj, BitVec.xor_assoc, BitVec.xor_self,
      BitVec.xor_zero]
  exact ⟨_, hexec, State.block_eq_of_elements hlen0 (hwords 0), State.block_eq_of_elements hlen1 (hwords 1)⟩

/-! ### The shift register -/

/-- One shift of the register of h(x) (R122). -/
def lfsrShift (z : BitVec 8) : BitVec 8 :=
  (z >>> 1) ||| (BitVec.ofBool (z.getLsbD 0 ^^ z.getLsbD 3 ^^ z.getLsbD 5 ^^ z.getLsbD 7)).setWidth 8 <<< 7

theorem lfsrBits_succ (n : Nat) (z : BitVec 8) : lfsrBits (n + 1) z = z.getLsbD 0 :: lfsrBits n (lfsrShift z) := rfl

@[simp] theorem length_lfsrBits (n : Nat) (z : BitVec 8) : (lfsrBits n z).length = n := by
  induction n generalizing z with
  | zero => rfl
  | succ n ih => rw [lfsrBits_succ, List.length_cons, ih]

/-- The output of m + n shifts is that of m shifts and that of n more from the state they lead to. -/
theorem lfsrBits_add (m n : Nat) (z : BitVec 8) :
    lfsrBits (m + n) z = lfsrBits m z ++ lfsrBits n (lfsrShift^[m] z) := by
  induction m generalizing z with
  | zero => rw [Nat.zero_add]; rfl
  | succ m ih => rw [Nat.succ_add, lfsrBits_succ, ih, lfsrBits_succ, Function.iterate_succ_apply, List.cons_append]

/-- Bits that fill m bytes are packed apart from the bits after them (R109). -/
theorem packBits_append (m n : Nat) {u : List Bool} (v : List Bool) (hu : u.length = 8 * m) :
    packBits (m + n) (u ++ v) = packBits m u ++ packBits n v := by
  rw [packBits, List.range_add, List.map_append, List.map_map]
  congr 1
  · refine List.map_congr_left fun j hj => ?_
    have hj : j < m := List.mem_range.1 hj
    rw [List.drop_append_of_le_length (by omega), List.take_append_of_le_length (by rw [List.length_drop]; omega)]
  · refine List.map_congr_left fun j _ => ?_
    rw [Function.comp_apply, Nat.mul_add, ← hu, List.drop_length_add_append]

/-- The bytes of m + n from z are the first m of them and n more from the state after 8m shifts. -/
theorem packBits_lfsrBits_add (m n : Nat) (z : BitVec 8) :
    packBits (m + n) (lfsrBits (8 * (m + n)) z) =
      packBits m (lfsrBits (8 * m) z) ++ packBits n (lfsrBits (8 * n) (lfsrShift^[8 * m] z)) := by
  rw [Nat.mul_add, lfsrBits_add, packBits_append m n _ (length_lfsrBits _ _)]

/-- The first n bytes the register puts out from z, eight shifts a byte: the form in which they are cheap to compute. -/
def lfsrBytes : (n : Nat) → (z : BitVec 8) → List Byte
  | 0, _ => []
  | n + 1, z => packByte (lfsrBits 8 z) :: lfsrBytes n (lfsrShift^[8] z)

theorem packBits_lfsrBits (n : Nat) (z : BitVec 8) : packBits n (lfsrBits (8 * n) z) = lfsrBytes n z := by
  induction n generalizing z with
  | zero => rfl
  | succ n ih =>
    rw [Nat.add_comm n 1, packBits_lfsrBits_add, ih, Nat.add_comm 1 n]
    rfl

/-- The table of R121 is the register's output from all ones. -/
theorem lfsrBytes_ones : lfsrBytes 255 0xFF = params.scr := by decide +kernel

/-- The register returns to all ones after 255 shifts (R122). -/
theorem isPeriodicPt_lfsrShift_ones : Function.IsPeriodicPt lfsrShift 255 0xFF := by decide +kernel

/-- Settles O29: after the 255 bytes of the table the register has gone round eight times, and starts again. -/
theorem scramblerTableIsLfsrOutput : Obligations.ScramblerTableIsLfsrOutput := by
  have htable : packBits 255 (lfsrBits (8 * 255) 0xFF) = params.scr :=
    (packBits_lfsrBits 255 0xFF).trans lfsrBytes_ones
  have hreturn : lfsrShift^[8 * 255] 0xFF = 0xFF := isPeriodicPt_lfsrShift_ones.const_mul 8
  have htwice := packBits_lfsrBits_add 255 255 0xFF
  rw [hreturn, htable] at htwice
  exact ⟨htable, htwice⟩

end Sys2Proof.Machine
end

section
/-! PROOFS. The field GF(256): gmul is linear over the bits in each factor, which makes its laws a matter of the eight
bits (O30), and the powers of alpha run through all non-zero bytes (O31). -/

namespace Sys2Proof.Machine

/-! ### gmul is linear in each factor -/

/-- One step of the two folds of R132, on a sum. -/
theorem ite_xor_xor_ite (c d : Bool) (p q t u : ℕ) :
    ((if c then p ^^^ t else p) ^^^ if d then q ^^^ u else q) =
      (p ^^^ q) ^^^ ((if c then t else 0) ^^^ if d then u else 0) := by
  cases c <;> cases d <;> simp [Nat.xor_comm, Nat.xor_left_comm]

/-- A fold of R132 that adds the terms of two others. -/
theorem foldl_xor_of_terms {c d e : ℕ → Bool} {t u v : ℕ → ℕ}
    (h : ∀ i, (if e i then v i else 0) = (if c i then t i else 0) ^^^ if d i then u i else 0) (is : List ℕ) (p q : ℕ) :
    is.foldl (fun p i => if e i then p ^^^ v i else p) (p ^^^ q) =
      is.foldl (fun p i => if c i then p ^^^ t i else p) p ^^^
        is.foldl (fun q i => if d i then q ^^^ u i else q) q := by
  refine List.foldl_hom₂ is (· ^^^ ·) _ _ _ p q fun p q i => ?_
  rw [ite_xor_xor_ite, ← h i]
  cases e i <;> simp

theorem carrylessProduct_xor_right (a b c : ℕ) :
    carrylessProduct a (b ^^^ c) = carrylessProduct a b ^^^ carrylessProduct a c := by
  refine foldl_xor_of_terms (t := (a <<< ·)) (u := (a <<< ·)) (v := (a <<< ·)) (fun i => ?_) (List.range 8) 0 0
  rw [Nat.testBit_xor]
  cases b.testBit i <;> cases c.testBit i <;> simp

theorem carrylessProduct_xor_left (a b c : ℕ) :
    carrylessProduct (a ^^^ b) c = carrylessProduct a c ^^^ carrylessProduct b c := by
  refine foldl_xor_of_terms (t := (a <<< ·)) (u := (b <<< ·)) (v := ((a ^^^ b) <<< ·)) (fun i => ?_) (List.range 8) 0 0
  rw [Nat.shiftLeft_xor_distrib]
  cases c.testBit i <;> simp

theorem reducePoly_xor (poly p q : ℕ) : reducePoly poly (p ^^^ q) = reducePoly poly p ^^^ reducePoly poly q := by
  refine List.foldl_hom₂ _ (· ^^^ ·) _ _ _ p q fun p q i => ?_
  rw [ite_xor_xor_ite, Nat.testBit_xor]
  cases p.testBit i <;> cases q.testBit i <;> simp

/-- gmul distributes over gadd (R132). -/
theorem gmul_xor_right (P : Params) (a b c : Byte) : gmul P a (b ^^^ c) = gmul P a b ^^^ gmul P a c := by
  simp only [gmul, BitVec.toNat_xor, carrylessProduct_xor_right, reducePoly_xor, BitVec.ofNat_xor]

theorem gmul_xor_left (P : Params) (a b c : Byte) : gmul P (a ^^^ b) c = gmul P a c ^^^ gmul P b c := by
  simp only [gmul, BitVec.toNat_xor, carrylessProduct_xor_left, reducePoly_xor, BitVec.ofNat_xor]

/-- A sum of some of the eight bits. -/
def sumBits (a : Byte) (is : List (Fin 8)) : Byte :=
  is.foldr (fun i v => (if a.getLsbD i.val then BitVec.twoPow 8 i.val else 0) ^^^ v) 0

theorem sumBits_finRange : ∀ a : Byte, sumBits a (List.finRange 8) = a := by decide +kernel

/-- A function of a byte that is linear over the bits. -/
def XorLinear (f : Byte → Byte) : Prop := ∀ a b, f (a ^^^ b) = f a ^^^ f b

theorem XorLinear.map_zero {f : Byte → Byte} (hf : XorLinear f) : f 0 = 0 := by
  simpa using hf 0 0

theorem XorLinear.comp {f g : Byte → Byte} (hf : XorLinear f) (hg : XorLinear g) : XorLinear fun a => f (g a) :=
  fun a b => by simp only [hg a b, hf (g a)]

/-- Linear functions that agree on the eight bits agree. -/
theorem XorLinear.ext {f g : Byte → Byte} (hf : XorLinear f) (hg : XorLinear g)
    (h : ∀ i : Fin 8, f (BitVec.twoPow 8 i) = g (BitVec.twoPow 8 i)) (a : Byte) : f a = g a := by
  have hsum : ∀ is, f (sumBits a is) = g (sumBits a is) := by
    intro is
    induction is with
    | nil => exact hf.map_zero.trans hg.map_zero.symm
    | cons i is ih =>
      rw [show sumBits a (i :: is) = (if a.getLsbD i.val then BitVec.twoPow 8 i.val else 0) ^^^ sumBits a is from rfl,
        hf, hg, ih]
      split
      · rw [h i]
      · rw [hf.map_zero, hg.map_zero]
  rw [← sumBits_finRange a]
  exact hsum _

theorem xorLinear_gmul_right (P : Params) (a : Byte) : XorLinear (gmul P a) := gmul_xor_right P a
theorem xorLinear_gmul_left (P : Params) (b : Byte) : XorLinear (gmul P · b) := fun a c => gmul_xor_left P a c b

/-! ### Multiplication by alpha -/

/-- Multiplication by α as R133 writes it: shift left by one and, if bit 8 is set, exclusive-or with 0x187. -/
def xtime (a : Byte) : Byte := (a <<< 1) ^^^ (if a.msb then 0x87 else 0)

theorem xorLinear_xtime : XorLinear xtime := by
  intro a b
  have hmsb : (if (a ^^^ b).msb then (0x87 : Byte) else 0) =
      (if a.msb then 0x87 else 0) ^^^ if b.msb then 0x87 else 0 := by
    rw [BitVec.msb_xor]
    cases a.msb <;> cases b.msb <;> rfl
  rw [xtime, hmsb, BitVec.shiftLeft_xor_distrib, xtime, xtime]
  ac_rfl

theorem gmul_one (a : Byte) : gmul params a 1 = a :=
  (xorLinear_gmul_left params 1).ext (g := id) (fun _ _ => rfl) (by decide +kernel) a

theorem gmul_xtime_bits : ∀ i j : Fin 8, gmul params (BitVec.twoPow 8 i) (xtime (BitVec.twoPow 8 j)) =
    xtime (gmul params (BitVec.twoPow 8 i) (BitVec.twoPow 8 j)) := by decide +kernel

/-- A factor α may be taken out of a product. -/
theorem gmul_xtime (a b : Byte) : gmul params a (xtime b) = xtime (gmul params a b) :=
  (xorLinear_gmul_left params (xtime b)).ext (xorLinear_xtime.comp (xorLinear_gmul_left params b)) (fun i =>
    ((xorLinear_gmul_right params _).comp xorLinear_xtime).ext (xorLinear_xtime.comp (xorLinear_gmul_right params _))
      (gmul_xtime_bits i) b) a

theorem gmul_iterate_xtime (a b : Byte) (n : ℕ) : gmul params a (xtime^[n] b) = xtime^[n] (gmul params a b) := by
  induction n with
  | zero => rfl
  | succ n ih => rw [Function.iterate_succ_apply', Function.iterate_succ_apply', gmul_xtime, ih]

theorem twoPow_eq_iterate_xtime : ∀ i : Fin 8, BitVec.twoPow 8 i = xtime^[i] 1 := by decide

theorem gmul_twoPow (a : Byte) (i : Fin 8) : gmul params a (BitVec.twoPow 8 i) = xtime^[i] a := by
  rw [twoPow_eq_iterate_xtime, gmul_iterate_xtime, gmul_one]

theorem gmul_comm (a b : Byte) : gmul params a b = gmul params b a := by
  refine (xorLinear_gmul_left params b).ext (xorLinear_gmul_right params b) (fun i => ?_) a
  refine (xorLinear_gmul_right params _).ext (xorLinear_gmul_left params _) (fun j => ?_) b
  rw [gmul_twoPow, gmul_twoPow, twoPow_eq_iterate_xtime i, twoPow_eq_iterate_xtime j,
    ← Function.iterate_add_apply, ← Function.iterate_add_apply, Nat.add_comm]

theorem gmul_assoc (a b c : Byte) : gmul params (gmul params a b) c = gmul params a (gmul params b c) := by
  refine (xorLinear_gmul_right params _).ext ((xorLinear_gmul_right params a).comp (xorLinear_gmul_right params b))
    (fun i => ?_) c
  rw [gmul_twoPow, gmul_twoPow, gmul_iterate_xtime]

theorem gmul_zero (a : Byte) : gmul params a 0 = 0 := (xorLinear_gmul_right params a).map_zero

theorem gmul_two (a : Byte) : gmul params a 0x02 = xtime a := gmul_twoPow a 1

/-! ### The powers of alpha -/

theorem length_powersFrom (P : Params) (n : ℕ) (a : Byte) : (powersFrom P n a).length = n := by
  induction n generalizing a with
  | zero => rfl
  | succ n ih => rw [powersFrom_succ, List.length_cons, ih]

theorem getD_powersFrom (n : ℕ) (a : Byte) {i : ℕ} (hi : i < n) :
    (powersFrom params n a).getD i 0 = xtime^[i] a := by
  induction n generalizing a i with
  | zero => exact absurd hi (by omega)
  | succ n ih =>
    rw [powersFrom_succ, gmul_two]
    cases i with
    | zero => rfl
    | succ i => rw [List.getD_cons_succ, ih _ (by omega), Function.iterate_succ_apply]

theorem gexp_eq_iterate {i : ℕ} (hi : i < 255) : gexp params i = xtime^[i] 1 := getD_powersFrom 255 1 hi

theorem isPeriodicPt_xtime : Function.IsPeriodicPt xtime 255 1 := by decide +kernel

/-- α^i, for every exponent (R133: α^255 = 1). -/
theorem gexp_mod (n : ℕ) : gexp params (n % 255) = xtime^[n] 1 := by
  rw [gexp_eq_iterate (Nat.mod_lt _ (by omega)), isPeriodicPt_xtime.iterate_mod_apply]

/-- α is primitive (R133): its order divides 255 and none of 255/3, 255/5 and 255/17. -/
theorem minimalPeriod_xtime : Function.minimalPeriod xtime 1 = 255 := by
  have hdvd : Function.minimalPeriod xtime 1 ∣ 255 := isPeriodicPt_xtime.minimalPeriod_dvd
  have hmem : Function.minimalPeriod xtime 1 ∈ Nat.divisors 255 := Nat.mem_divisors.2 ⟨hdvd, by omega⟩
  have hiter : xtime^[Function.minimalPeriod xtime 1] 1 = 1 := Function.iterate_minimalPeriod
  have hnot : ∀ d ∈ Nat.divisors 255, xtime^[d] 1 = 1 → d = 255 := by decide +kernel
  exact hnot _ hmem hiter

theorem gexp_injOn : Set.InjOn (gexp params) (Set.Iio 255) := by
  intro i hi j hj hij
  rw [gexp_eq_iterate hi, gexp_eq_iterate hj] at hij
  have hinj := Function.iterate_injOn_Iio_minimalPeriod (f := xtime) (x := 1)
  rw [minimalPeriod_xtime] at hinj
  exact hinj hi hj hij

theorem gmul_gexp (i j : ℕ) :
    gmul params (gexp params (i % 255)) (gexp params (j % 255)) = gexp params ((i + j) % 255) := by
  rw [gexp_mod, gexp_mod, gexp_mod, gmul_iterate_xtime, gmul_one, ← Function.iterate_add_apply, Nat.add_comm]

theorem gexp_ne_zero {i : ℕ} (hi : i < 255) : gexp params i ≠ 0 := by
  intro hzero
  have hprod := gmul_gexp (255 - i) i
  rw [Nat.mod_eq_of_lt hi, hzero, gmul_zero, Nat.sub_add_cancel hi.le] at hprod
  exact absurd hprod (by decide +kernel)

theorem card_byte : Fintype.card Byte = 256 :=
  (Fintype.card_congr (BitVec.equivFin (m := 8)).toEquiv).trans (Fintype.card_fin _)

/-- α^0, …, α^254 are 255 distinct non-zero bytes, so all of them. -/
theorem exists_gexp_eq {a : Byte} (ha : a ≠ 0) : ∃ i < 255, gexp params i = a := by
  have himage : (Finset.range 255).image (gexp params) = Finset.univ.erase 0 := by
    refine Finset.eq_of_subset_of_card_le (fun b hb => ?_) ?_
    · obtain ⟨i, hi, rfl⟩ := Finset.mem_image.1 hb
      exact Finset.mem_erase.2 ⟨gexp_ne_zero (Finset.mem_range.1 hi), Finset.mem_univ _⟩
    · rw [Finset.card_image_of_injOn (by simpa using gexp_injOn), Finset.card_erase_of_mem (Finset.mem_univ _),
        Finset.card_univ, card_byte, Finset.card_range]
  have hmem : a ∈ (Finset.range 255).image (gexp params) := himage ▸ Finset.mem_erase.2 ⟨ha, Finset.mem_univ a⟩
  simpa using hmem

theorem glog_spec {a : Byte} (ha : a ≠ 0) : glog params a < 255 ∧ gexp params (glog params a) = a := by
  obtain ⟨i, hi, rfl⟩ := exists_gexp_eq ha
  have hlen : (expTable params).length = 255 := length_powersFrom params 255 1
  have hmem : gexp params i ∈ expTable params := by
    rw [gexp, List.getD_eq_getElem _ _ (hlen ▸ hi)]
    exact List.getElem_mem _
  have hlt := List.idxOf_lt_length_of_mem hmem
  rw [glog_of_ne_zero _ ha]
  refine ⟨hlen ▸ hlt, ?_⟩
  conv_lhs => rw [gexp, List.getD_eq_getElem _ _ hlt, List.getElem_idxOf]

theorem glog_gexp {i : ℕ} (hi : i < 255) : glog params (gexp params i) = i := by
  obtain ⟨hlt, hexp⟩ := glog_spec (gexp_ne_zero hi)
  exact gexp_injOn hlt hi hexp

theorem gmul_eq_gexp {a b : Byte} (ha : a ≠ 0) (hb : b ≠ 0) :
    gmul params a b = gexp params ((glog params a + glog params b) % 255) := by
  obtain ⟨hlta, hexpa⟩ := glog_spec ha
  obtain ⟨hltb, hexpb⟩ := glog_spec hb
  have hprod := gmul_gexp (glog params a) (glog params b)
  rwa [Nat.mod_eq_of_lt hlta, Nat.mod_eq_of_lt hltb, hexpa, hexpb] at hprod

theorem gmul_ginv {a : Byte} (ha : a ≠ 0) : gmul params a (ginv params a) = 1 := by
  obtain ⟨hlt, hexp⟩ := glog_spec ha
  have hprod := gmul_gexp (glog params a) (255 - glog params a)
  rw [Nat.mod_eq_of_lt hlt, hexp, Nat.add_sub_cancel' hlt.le] at hprod
  rw [ginv_of_ne_zero _ ha]
  rwa [gexp_mod 255, isPeriodicPt_xtime] at hprod

/-- Settles O30: the laws of a product that is linear over the bits, and of the powers of alpha. -/
theorem fieldMultiplicationLaws : Obligations.FieldMultiplicationLaws := fun a b c =>
  ⟨gmul_comm a b, gmul_assoc a b c, gmul_xor_right params a b c, gmul_zero a, gmul_one a, gmul_eq_gexp⟩

theorem bpow_injOn {i j : ℕ} (hi : i < 255) (hj : j < 255) (h : bpow params i = bpow params j) : i = j := by
  have hexp : ∀ n : ℕ, bpow params n = gexp params ((11 * n) % 255) := fun _ => rfl
  rw [hexp, hexp] at h
  have hmod := gexp_injOn (Nat.mod_lt _ (by omega)) (Nat.mod_lt _ (by omega)) h
  omega

/-- R133 and R134 for the exponents 0..254: EXP enumerates the non-zero bytes, LOG and ginv invert, beta is primitive.
This is O31 with natural numbers in its last clause. -/
theorem antilogTable_enumerates_of_nat :
    (∀ a : Byte, a ≠ 0 → glog params a < 255 ∧ gexp params (glog params a) = a ∧ gmul params a (ginv params a) = 1) ∧
    (∀ i, i < 255 → gexp params i ≠ 0 ∧ glog params (gexp params i) = i) ∧
    ∀ i j : ℕ, i < 255 → j < 255 → bpow params i = bpow params j → i = j := by
  refine ⟨fun a ha => ?_, fun i hi => ⟨gexp_ne_zero hi, glog_gexp hi⟩, fun i j => bpow_injOn⟩
  obtain ⟨hlt, hexp⟩ := glog_spec ha
  exact ⟨hlt, hexp, gmul_ginv ha⟩

/-- Refutes O31: its last clause speaks of integers i and j below 255, and so of negative ones; the exponents 0 and
-255 give the same power of beta. For natural numbers the statement is
`antilogTable_enumerates_of_nat`. -/
theorem not_antilogTableEnumeratesField : ¬ Obligations.AntilogTableEnumeratesField := by
  intro ⟨_, _, hbpow⟩
  have hmod : ((11 : ℤ) * 0 % 255).toNat = ((11 : ℤ) * -255 % 255).toNat := by decide
  have hsame : bpow params 0 = bpow params (-255) := congrArg (gexp params) hmod
  exact absurd (hbpow 0 (-255) (by decide) (by decide) hsame) (by decide)

end Sys2Proof.Machine
end

section
/-! PROOFS. Linear recurrences over a field, as R140 to R143 use them: the Berlekamp-Massey invariant with Massey's
bound on the length, recurrences of sums of powers, and Forney's formula for the weights. -/

namespace Sys2Proof.Machine
open Polynomial

section
variable {F : Type} [Field F]

/-- A combination of powers at distinct points that vanishes for as many exponents as there are points is trivial. -/
theorem eq_zero_of_powerSums_eq_zero {T : Finset ℕ} {x c : ℕ → F} {m : ℕ} (hx : Set.InjOn x T) (hm : T.card ≤ m)
    (hsum : ∀ i, i < m → ∑ p ∈ T, c p * x p ^ i = 0) : ∀ p ∈ T, c p = 0 := by
  let e := T.equivFin.symm
  have hv : (fun j => c (e j)) = 0 := by
    refine Matrix.eq_zero_of_forall_pow_sum_mul_pow_eq_zero (f := fun j => x (e j)) (fun i j hij => ?_) fun i => ?_
    · exact e.injective (Subtype.ext (hx (e i).2 (e j).2 hij))
    · rw [e.sum_comp fun p : T => c p * x p ^ (i : ℕ), Finset.sum_coe_sort T fun p => c p * x p ^ (i : ℕ)]
      exact hsum i (i.2.trans_le hm)
  intro p hp
  simpa [e] using congrFun hv (T.equivFin ⟨p, hp⟩)

/-- Coefficient j of Λ(x)·S(x), with S(x) the series of the sequence s: the discrepancy of R140 where the degree of Λ
is at most j. -/
noncomputable def seriesCoeff (s : ℕ → F) (Λ : F[X]) (j : ℕ) : F :=
  PowerSeries.coeff j ((Λ : PowerSeries F) * PowerSeries.mk s)

/-- Λ generates s(0), …, s(n-1) by a recurrence of length L (R140): constant term 1, degree at most L, and the
discrepancies from L on are zero. -/
structure Generates (s : ℕ → F) (n L : ℕ) (Λ : F[X]) : Prop where
  coeff_zero   : Λ.coeff 0 = 1
  natDegree_le : Λ.natDegree ≤ L
  discrepancy  : ∀ j, L ≤ j → j < n → seriesCoeff s Λ j = 0

variable {s t : ℕ → F} {n L : ℕ} {Λ : F[X]}

theorem seriesCoeff_eq_sum (s : ℕ → F) (Λ : F[X]) (j : ℕ) :
    seriesCoeff s Λ j = ∑ k ∈ Finset.range (j + 1), Λ.coeff k * s (j - k) := by
  simp [seriesCoeff, PowerSeries.coeff_mul, Finset.Nat.sum_antidiagonal_eq_sum_range_succ fun a b => Λ.coeff a * s b]

theorem seriesCoeff_congr (Λ : F[X]) {j : ℕ} (hst : ∀ i, i ≤ j → s i = t i) :
    seriesCoeff s Λ j = seriesCoeff t Λ j := by
  rw [seriesCoeff_eq_sum, seriesCoeff_eq_sum]
  exact Finset.sum_congr rfl fun k _ => by rw [hst _ (Nat.sub_le j k)]

theorem seriesCoeff_X_mul (s : ℕ → F) (Λ : F[X]) (j : ℕ) : seriesCoeff s (X * Λ) (j + 1) = seriesCoeff s Λ j := by
  rw [seriesCoeff, Polynomial.coe_mul, Polynomial.coe_X, mul_assoc, PowerSeries.coeff_succ_X_mul, seriesCoeff]

theorem seriesCoeff_sub_C_mul (s : ℕ → F) (Λ B : F[X]) (q : F) (j : ℕ) :
    seriesCoeff s (Λ - C q * B) j = seriesCoeff s Λ j - q * seriesCoeff s B j := by
  simp only [seriesCoeff_eq_sum, Polynomial.coeff_sub, Polynomial.coeff_C_mul, Finset.mul_sum,
    ← Finset.sum_sub_distrib, sub_mul, mul_assoc]

theorem Generates.of_le {m : ℕ} (h : Generates s n L Λ) (hm : m ≤ n) : Generates s m L Λ :=
  ⟨h.coeff_zero, h.natDegree_le, fun j hj hjm => h.discrepancy j hj (hjm.trans_le hm)⟩

theorem Generates.congr (h : Generates s n L Λ) (hst : ∀ i, i < n → s i = t i) : Generates t n L Λ :=
  ⟨h.coeff_zero, h.natDegree_le, fun j hj hjn => by
    rw [← seriesCoeff_congr Λ fun i hi => hst i (by omega), h.discrepancy j hj hjn]⟩

/-- Above a gap as long as its degree, a polynomial multiplies a coefficient by its constant term. -/
theorem coeff_mul_of_gap {σ : F[X]} {A : PowerSeries F} {ν : ℕ} (hσ : σ.natDegree ≤ ν)
    (hA : ∀ j, n ≤ j + ν → j < n → PowerSeries.coeff j A = 0) :
    PowerSeries.coeff n ((σ : PowerSeries F) * A) = σ.coeff 0 * PowerSeries.coeff n A := by
  rw [PowerSeries.coeff_mul, Finset.sum_eq_single (0, n)]
  · rw [Polynomial.coeff_coe]
  · intro k hk hne
    have hk : k.1 + k.2 = n := Finset.HasAntidiagonal.mem_antidiagonal.1 hk
    rw [Polynomial.coeff_coe]
    by_cases hdeg : k.1 ≤ ν
    · have hk0 : k.1 ≠ 0 := fun h0 => hne (Prod.ext h0 (by simp; omega))
      rw [hA k.2 (by omega) (by omega), mul_zero]
    · rw [Polynomial.coeff_eq_zero_of_natDegree_lt (by omega), zero_mul]
  · simp

/-- Massey's bound: a recurrence that continues past the first discrepancy of one of length L has length at least
n + 1 - L. -/
theorem Generates.length_add_le {σ : F[X]} {ν : ℕ} (hΛ : Generates s n L Λ) (hd : seriesCoeff s Λ n ≠ 0)
    (hσ : Generates s (n + 1) ν σ) : n + 1 ≤ ν + L := by
  by_contra hlt
  have hleft := coeff_mul_of_gap (A := (Λ : PowerSeries F) * PowerSeries.mk s) (n := n) hσ.natDegree_le fun j hj hjn =>
    hΛ.discrepancy j (by omega) hjn
  have hright := coeff_mul_of_gap (A := (σ : PowerSeries F) * PowerSeries.mk s) (n := n) hΛ.natDegree_le fun j hj hjn =>
    hσ.discrepancy j (by omega) (by omega)
  have hlast : PowerSeries.coeff n ((σ : PowerSeries F) * PowerSeries.mk s) = 0 :=
    hσ.discrepancy n (by omega) (by omega)
  rw [mul_left_comm, hright, hlast, hσ.coeff_zero, mul_zero, one_mul] at hleft
  exact hd hleft.symm

/-! ### The Berlekamp-Massey invariant -/

/-- What holds of LAM, LEN and BDISC before iteration n, with B = x^MSH · BPOL (R140). -/
structure BmInvariant (s : ℕ → F) (n L : ℕ) (Λ B : F[X]) (b : F) : Prop where
  generates    : Generates s n L Λ
  length_le    : L ≤ n
  shortest     : ∀ ν σ, Generates s n ν σ → L ≤ ν
  b_ne_zero    : b ≠ 0
  B_coeff_zero : B.coeff 0 = 0
  B_natDegree  : B.natDegree + L ≤ n + 1
  B_gap        : ∀ j, n + 1 ≤ j + L → j < n → seriesCoeff s B j = 0
  B_last       : L ≠ 0 → seriesCoeff s B n = b

theorem bmInvariant_start (s : ℕ → F) : BmInvariant s 0 0 1 X 1 where
  generates := ⟨by simp, by simp, fun j _ hj => absurd hj (by omega)⟩
  length_le := le_rfl
  shortest _ _ _ := Nat.zero_le _
  b_ne_zero := one_ne_zero
  B_coeff_zero := by simp
  B_natDegree := by simp
  B_gap _ _ hj := absurd hj (by omega)
  B_last h := absurd rfl h

theorem natDegree_X_mul_le (B : F[X]) : (X * B).natDegree ≤ B.natDegree + 1 := by
  have := Polynomial.natDegree_mul_le (p := X) (q := B)
  rw [Polynomial.natDegree_X] at this
  omega

namespace BmInvariant
variable {B : F[X]} {b : F} (h : BmInvariant s n L Λ B b)
include h

/-- B moves on by one power of x when the length stays (R140: MSH <- MSH + 1). -/
theorem shift {Λ' : F[X]} (hgen : Generates s (n + 1) L Λ') : BmInvariant s (n + 1) L Λ' (X * B) b where
  generates := hgen
  length_le := h.length_le.trans n.le_succ
  shortest ν σ hσ := h.shortest ν σ (hσ.of_le n.le_succ)
  b_ne_zero := h.b_ne_zero
  B_coeff_zero := by simp
  B_natDegree := by
    have := natDegree_X_mul_le B
    have := h.B_natDegree
    omega
  B_gap j hj hjn := by
    obtain _ | j := j
    · have := h.length_le
      omega
    · rw [seriesCoeff_X_mul, h.B_gap j (by omega) (by omega)]
  B_last hL := by rw [seriesCoeff_X_mul, h.B_last hL]

/-- Iteration n with discrepancy zero (R140). -/
theorem step_of_eq_zero (hd : seriesCoeff s Λ n = 0) : BmInvariant s (n + 1) L Λ (X * B) b := by
  refine h.shift ⟨h.generates.coeff_zero, h.generates.natDegree_le, fun j hj hjn => ?_⟩
  rcases Nat.lt_succ_iff_lt_or_eq.1 hjn with hlt | rfl
  · exact h.generates.discrepancy j hj hlt
  · exact hd

/-- The correction Λ - (d/b)·B removes discrepancy n, for a recurrence of any length that leaves B room (R140). -/
theorem generates_corrected {L' : ℕ} (hL : L ≤ L') (hB : n + 1 ≤ L' + L) :
    Generates s (n + 1) L' (Λ - C (seriesCoeff s Λ n / b) * B) where
  coeff_zero := by simp [h.generates.coeff_zero, h.B_coeff_zero]
  natDegree_le := by
    refine (Polynomial.natDegree_sub_le _ _).trans (max_le (h.generates.natDegree_le.trans hL) ?_)
    have := Polynomial.natDegree_C_mul_le (seriesCoeff s Λ n / b) B
    have := h.B_natDegree
    omega
  discrepancy j hj hjn := by
    rw [seriesCoeff_sub_C_mul]
    rcases Nat.lt_succ_iff_lt_or_eq.1 hjn with hlt | rfl
    · rw [h.generates.discrepancy j (hL.trans hj) hlt, h.B_gap j (by omega) hlt, mul_zero, sub_zero]
    · rw [h.B_last (by omega), div_mul_cancel₀ _ h.b_ne_zero, sub_self]

/-- Iteration n with a discrepancy that the length has room for (R140). -/
theorem step_of_room (hL : n < 2 * L) :
    BmInvariant s (n + 1) L (Λ - C (seriesCoeff s Λ n / b) * B) (X * B) b :=
  h.shift (h.generates_corrected le_rfl (by omega))

/-- Iteration n with a discrepancy that makes the recurrence longer (R140); by Massey's bound no shorter one does. -/
theorem step_of_growth (hd : seriesCoeff s Λ n ≠ 0) (hL : 2 * L ≤ n) :
    BmInvariant s (n + 1) (n + 1 - L) (Λ - C (seriesCoeff s Λ n / b) * B) (X * Λ) (seriesCoeff s Λ n) where
  generates := h.generates_corrected (by omega) (by omega)
  length_le := by omega
  shortest ν σ hσ := by
    have := h.generates.length_add_le hd hσ
    omega
  b_ne_zero := hd
  B_coeff_zero := by simp
  B_natDegree := by
    have := natDegree_X_mul_le Λ
    have := h.generates.natDegree_le
    omega
  B_gap j hj hjn := by
    obtain _ | j := j
    · omega
    · rw [seriesCoeff_X_mul, h.generates.discrepancy j (by omega) (by omega)]
  B_last _ := seriesCoeff_X_mul s Λ n

end BmInvariant

/-! ### Sums of powers -/

/-- The recurrence Λ on a sum of powers: the terms are multiplied by Λ at the inverse points. -/
theorem seriesCoeff_powerSum {T : Finset ℕ} {x : ℕ → F} (hx : ∀ p ∈ T, x p ≠ 0) (c : ℕ → F) (hn : Λ.natDegree ≤ n) :
    seriesCoeff (fun i => ∑ p ∈ T, c p * x p ^ i) Λ n = ∑ p ∈ T, c p * x p ^ n * Λ.eval (x p)⁻¹ := by
  simp only [seriesCoeff_eq_sum, Finset.mul_sum]
  rw [Finset.sum_comm]
  refine Finset.sum_congr rfl fun p hp => ?_
  rw [Polynomial.eval_eq_sum_range' (Nat.lt_succ_of_le hn), Finset.mul_sum]
  refine Finset.sum_congr rfl fun k hk => ?_
  rw [pow_sub₀ _ (hx p hp) (Finset.mem_range_succ_iff.1 hk), inv_pow]
  ring

/-- The locator polynomial of the points x(p): its roots are their inverses (R140). -/
noncomputable def locatorPoly (T : Finset ℕ) (x : ℕ → F) : F[X] := ∏ p ∈ T, (1 - C (x p) * X)

theorem coeff_zero_locatorPoly (T : Finset ℕ) (x : ℕ → F) : (locatorPoly T x).coeff 0 = 1 := by
  simp [locatorPoly, Polynomial.coeff_zero_prod]

theorem natDegree_locatorPoly_le (T : Finset ℕ) (x : ℕ → F) : (locatorPoly T x).natDegree ≤ T.card := by
  refine (Polynomial.natDegree_prod_le _ _).trans ((Finset.sum_le_card_nsmul _ _ 1 fun p _ => ?_).trans (by simp))
  refine (Polynomial.natDegree_sub_le _ _).trans (max_le (by simp) ?_)
  exact (Polynomial.natDegree_C_mul_le _ _).trans Polynomial.natDegree_X_le

theorem eval_locatorPoly {T : Finset ℕ} {x : ℕ → F} {p : ℕ} (hp : p ∈ T) (hx : x p ≠ 0) :
    (locatorPoly T x).eval (x p)⁻¹ = 0 := by
  rw [locatorPoly, Polynomial.eval_prod]
  exact Finset.prod_eq_zero hp (by simp [hx])

/-- A sum of powers of T points is generated by their locator polynomial. -/
theorem generates_locatorPoly {T : Finset ℕ} {x : ℕ → F} (hx : ∀ p ∈ T, x p ≠ 0) {c : ℕ → F}
    (hs : ∀ i, i < n → s i = ∑ p ∈ T, c p * x p ^ i) : Generates s n T.card (locatorPoly T x) := by
  refine .congr (s := fun i => ∑ p ∈ T, c p * x p ^ i) ⟨coeff_zero_locatorPoly T x, natDegree_locatorPoly_le T x,
    fun j hj _ => ?_⟩ fun i hi => (hs i hi).symm
  rw [seriesCoeff_powerSum hx c ((natDegree_locatorPoly_le T x).trans hj)]
  exact Finset.sum_eq_zero fun p hp => by rw [eval_locatorPoly hp (hx p hp), mul_zero]

/-- A sequence is determined by its recurrence series, since the constant term is 1. -/
theorem eq_of_seriesCoeff_eq (hΛ : Λ.coeff 0 = 1) (h : ∀ j, j < n → seriesCoeff s Λ j = seriesCoeff t Λ j) :
    ∀ i, i < n → s i = t i := by
  intro i hi
  induction i using Nat.strong_induction_on with
  | h i ih =>
    have hi' := h i hi
    rw [seriesCoeff_eq_sum, seriesCoeff_eq_sum, Finset.sum_range_succ', Finset.sum_range_succ', hΛ] at hi'
    have htail : ∑ k ∈ Finset.range i, Λ.coeff (k + 1) * s (i - (k + 1)) =
        ∑ k ∈ Finset.range i, Λ.coeff (k + 1) * t (i - (k + 1)) :=
      Finset.sum_congr rfl fun k hk => by
        have := Finset.mem_range.1 hk
        rw [ih (i - (k + 1)) (by omega) (by omega)]
    simpa [htail] using hi'

/-- The inverse points are roots of every recurrence of a sum of powers that leaves the sum room: length and number of
terms together at most n. -/
theorem Generates.eval_inv_eq_zero (hΛ : Generates s n L Λ) {T : Finset ℕ} {x c : ℕ → F} (hx : ∀ p ∈ T, x p ≠ 0)
    (hinj : Set.InjOn x T) (hc : ∀ p ∈ T, c p ≠ 0) (hs : ∀ i, i < n → s i = ∑ p ∈ T, c p * x p ^ i)
    (hroom : T.card + L ≤ n) : ∀ p ∈ T, Λ.eval (x p)⁻¹ = 0 := by
  have hzero := eq_zero_of_powerSums_eq_zero (c := fun p => c p * x p ^ L * Λ.eval (x p)⁻¹) hinj
    (show T.card ≤ n - L by omega) fun i hi => by
      have hdisc := (hΛ.congr hs).discrepancy (L + i) (by omega) (by omega)
      rw [seriesCoeff_powerSum hx c (hΛ.natDegree_le.trans (by omega))] at hdisc
      rw [← hdisc]
      exact Finset.sum_congr rfl fun p _ => by ring
  exact fun p hp => by simpa [hc p hp, hx p hp] using hzero p hp

/-! ### The error values (R143) -/

/-- Λ without its root v. -/
noncomputable def cofactor (Λ : F[X]) (v : F) : F[X] := Λ /ₘ (X - C v)

theorem X_sub_C_mul_cofactor {v : F} (hv : Λ.eval v = 0) : (X - C v) * cofactor Λ v = Λ :=
  Polynomial.mul_divByMonic_eq_iff_isRoot.2 hv

theorem eval_cofactor_of_ne {v w : F} (hv : Λ.eval v = 0) (hw : Λ.eval w = 0) (hne : w ≠ v) :
    (cofactor Λ v).eval w = 0 := by
  have h := congrArg (Polynomial.eval w) (X_sub_C_mul_cofactor hv)
  rw [hw, Polynomial.eval_mul] at h
  simpa [sub_ne_zero.2 hne] using h

theorem eval_cofactor_self {v : F} (hv : Λ.eval v = 0) : (cofactor Λ v).eval v = (Polynomial.derivative Λ).eval v := by
  conv_rhs => rw [← X_sub_C_mul_cofactor hv]
  simp

theorem degree_cofactor_lt {v : F} (hΛ : Λ ≠ 0) {m : ℕ} (hm : Λ.natDegree ≤ m) :
    (cofactor Λ v).degree < m :=
  (Polynomial.degree_divByMonic_lt _ _ hΛ (by simp)).trans_le (Polynomial.natDegree_le_iff_degree_le.1 hm)

/-- The recurrence (x - 1/y)·Q on the powers of y. -/
theorem seriesCoeff_pow {y v : F} (hv : v * y = 1) (Q : F[X]) (j : ℕ) :
    seriesCoeff (fun i => y ^ i) ((X - C v) * Q) j = -v * Q.coeff j := by
  rw [sub_mul, seriesCoeff_sub_C_mul]
  cases j with
  | zero => simp [seriesCoeff_eq_sum]
  | succ j =>
    have hsucc : seriesCoeff (fun i => y ^ i) Q (j + 1) =
        y * seriesCoeff (fun i => y ^ i) Q j + Q.coeff (j + 1) := by
      rw [seriesCoeff_eq_sum, Finset.sum_range_succ, seriesCoeff_eq_sum, Finset.mul_sum, Nat.sub_self, pow_zero,
        mul_one]
      refine congrArg (· + _) (Finset.sum_congr rfl fun k hk => ?_)
      rw [Nat.succ_sub (Finset.mem_range_succ_iff.1 hk), pow_succ]
      ring
    rw [seriesCoeff_X_mul, hsucc]
    linear_combination (-seriesCoeff (fun i => y ^ i) Q j) * hv

/-- A recurrence has no more roots than its length. -/
theorem Generates.card_roots_le (hΛ : Generates s n L Λ) {T : Finset ℕ} {x : ℕ → F} (hinj : Set.InjOn x T)
    (hroot : ∀ p ∈ T, Λ.eval (x p)⁻¹ = 0) : T.card ≤ L := by
  by_contra hlt
  have hdeg : Λ.degree < T.card :=
    (Polynomial.natDegree_le_iff_degree_le.1 hΛ.natDegree_le).trans_lt (by exact_mod_cast not_le.1 hlt)
  have hzero := Polynomial.eq_zero_of_degree_lt_of_eval_index_eq_zero (v := fun q => (x q)⁻¹) T
    (fun q hq r hr hqr => hinj hq hr (inv_injective hqr)) hdeg hroot
  simpa [hzero] using hΛ.coeff_zero

section
variable {T : Finset ℕ} {x : ℕ → F} (hx : ∀ p ∈ T, x p ≠ 0) (hinj : Set.InjOn x T)
  (hΛ : Generates s n T.card Λ) (hroot : ∀ p ∈ T, Λ.eval (x p)⁻¹ = 0)
include hinj hΛ hroot

/-- A recurrence with as many roots as its length has simple roots: Forney's denominators are not zero. -/
theorem Generates.eval_derivative_ne_zero : ∀ p ∈ T, (Polynomial.derivative Λ).eval (x p)⁻¹ ≠ 0 := by
  intro p hp hzero
  have hne : Λ ≠ 0 := fun h => by simpa [h] using hΛ.coeff_zero
  have hcof : cofactor Λ (x p)⁻¹ = 0 := by
    refine Polynomial.eq_zero_of_degree_lt_of_eval_index_eq_zero (v := fun q => (x q)⁻¹) T
      (fun q hq r hr hqr => hinj hq hr (inv_injective hqr)) (degree_cofactor_lt hne hΛ.natDegree_le) fun q hq => ?_
    by_cases hqp : (x q)⁻¹ = (x p)⁻¹
    · rw [hqp, eval_cofactor_self (hroot p hp), hzero]
    · exact eval_cofactor_of_ne (hroot p hp) (hroot q hq) hqp
  have hmul := X_sub_C_mul_cofactor (hroot p hp)
  rw [hcof, mul_zero] at hmul
  exact hne hmul.symm

/-- A polynomial of degree below the number of roots is interpolated at the roots of Λ. -/
theorem Generates.sum_cofactor {Ω : F[X]} (hΩ : Ω.degree < T.card) :
    ∑ p ∈ T, C (Ω.eval (x p)⁻¹ / (Polynomial.derivative Λ).eval (x p)⁻¹) * cofactor Λ (x p)⁻¹ = Ω := by
  have hne : Λ ≠ 0 := fun h => by simpa [h] using hΛ.coeff_zero
  refine Polynomial.eq_of_degrees_lt_of_eval_index_eq (v := fun q => (x q)⁻¹) T
    (fun q hq r hr hqr => hinj hq hr (inv_injective hqr)) ?_ hΩ fun q hq => ?_
  · refine Polynomial.mem_degreeLT.1 (Submodule.sum_mem _ fun p _ => ?_)
    rw [Polynomial.C_mul']
    exact Submodule.smul_mem _ _ (Polynomial.mem_degreeLT.2 (degree_cofactor_lt hne hΛ.natDegree_le))
  · rw [Polynomial.eval_finsetSum, Finset.sum_eq_single q]
    · rw [Polynomial.eval_mul, Polynomial.eval_C, eval_cofactor_self (hroot q hq),
        div_mul_cancel₀ _ (hΛ.eval_derivative_ne_zero hinj hroot q hq)]
    · intro p hp hpq
      rw [Polynomial.eval_mul, eval_cofactor_of_ne (hroot p hp) (hroot q hq)
        (fun h => hpq (hinj hp hq (inv_injective h.symm))), mul_zero]
    · exact fun h => absurd hq h

include hx

/-- Forney: a sequence whose recurrence has as many roots as its length is the sum of the powers of the inverse roots,
with the weights that the evaluator polynomial Ω = Λ·S mod x^n gives. -/
theorem Generates.eq_powerSum {Ω : F[X]} (hcoeff : ∀ j, Ω.coeff j = if j < n then seriesCoeff s Λ j else 0) :
    ∀ i, i < n → s i =
      ∑ p ∈ T, -(x p * (Ω.eval (x p)⁻¹ / (Polynomial.derivative Λ).eval (x p)⁻¹)) * x p ^ i := by
  have hdeg : Ω.degree < T.card := by
    rw [Polynomial.degree_lt_iff_coeff_zero]
    intro j hj
    rw [hcoeff j]
    split
    · next hjn => exact hΛ.discrepancy j hj hjn
    · rfl
  refine eq_of_seriesCoeff_eq hΛ.coeff_zero fun j hj => ?_
  have hpow : ∀ p ∈ T, seriesCoeff (fun i => x p ^ i) Λ j = -(x p)⁻¹ * (cofactor Λ (x p)⁻¹).coeff j := by
    intro p hp
    conv_lhs => rw [← X_sub_C_mul_cofactor (hroot p hp)]
    exact seriesCoeff_pow (inv_mul_cancel₀ (hx p hp)) _ j
  have hsum : ∀ c : ℕ → F, seriesCoeff (fun i => ∑ p ∈ T, c p * x p ^ i) Λ j =
      ∑ p ∈ T, c p * seriesCoeff (fun i => x p ^ i) Λ j := by
    intro c
    simp only [seriesCoeff_eq_sum, Finset.mul_sum]
    rw [Finset.sum_comm]
    exact Finset.sum_congr rfl fun p _ => Finset.sum_congr rfl fun k _ => by ring
  have hΩ : seriesCoeff s Λ j = Ω.coeff j := by rw [hcoeff j, if_pos hj]
  rw [hΩ, hsum]
  conv_lhs => rw [← hΛ.sum_cofactor hinj hroot hdeg, Polynomial.finsetSum_coeff]
  refine Finset.sum_congr rfl fun p hp => ?_
  rw [Polynomial.coeff_C_mul, hpow p hp]
  have := hx p hp
  field_simp

end

/-- No weight is zero when the recurrence is the shortest. -/
theorem weight_ne_zero_of_shortest {T : Finset ℕ} {x : ℕ → F} (hx : ∀ p ∈ T, x p ≠ 0)
    (hshort : ∀ ν σ, Generates s n ν σ → T.card ≤ ν) {c : ℕ → F}
    (hs : ∀ i, i < n → s i = ∑ p ∈ T, c p * x p ^ i) : ∀ p ∈ T, c p ≠ 0 := by
  intro p hp hzero
  have hgen : Generates s n (T.erase p).card (locatorPoly (T.erase p) x) :=
    generates_locatorPoly (fun q hq => hx q (Finset.mem_of_mem_erase hq)) (c := c) fun i hi => by
      rw [hs i hi, Finset.sum_erase _ (by rw [hzero, zero_mul])]
  have hle := hshort _ _ hgen
  exact absurd (Finset.card_erase_lt_of_mem hp) (by omega)


end
end Sys2Proof.Machine
end


section
/-! PROOFS. The bytes as a field, words as polynomials over it, and the code C: its distance (O32) and its systematic
encoder (O33). -/

namespace Sys2Proof.Machine
open Polynomial

/-! ### The bytes as a field -/

/-- The bytes with the operations of R131 to R133. -/
def GF : Type := Byte

/-- The inverse of R133, completed by 0 at 0. -/
def GF.inv (a : Byte) : Byte := if a = 0 then 0 else ginv params a

theorem GF.gmul_inv {a : Byte} (ha : a ≠ 0) : gmul params a (GF.inv a) = 1 := by
  rw [GF.inv, if_neg ha, gmul_ginv ha]

/-- R131 to R133: the bytes with gadd, gmul and ginv are a field. -/
@[reducible] def GF.field : Field GF where
  add a b := gadd a b
  add_assoc := BitVec.xor_assoc
  zero := (0 : Byte)
  zero_add := @BitVec.zero_xor 8
  add_zero := @BitVec.xor_zero 8
  nsmul := @nsmulRec GF ⟨(0 : Byte)⟩ ⟨gadd⟩
  add_comm := BitVec.xor_comm
  mul a b := gmul params a b
  left_distrib a b c := gmul_xor_right params a b c
  right_distrib a b c := gmul_xor_left params a b c
  zero_mul := gmul_zero_left
  mul_zero := gmul_zero
  mul_assoc := gmul_assoc
  one := (1 : Byte)
  one_mul a := (gmul_comm 1 a).trans (gmul_one a)
  mul_one := gmul_one
  neg a := a
  zsmul := @zsmulRec GF ⟨(0 : Byte)⟩ ⟨gadd⟩ ⟨id⟩ (@nsmulRec GF ⟨(0 : Byte)⟩ ⟨gadd⟩)
  neg_add_cancel := @BitVec.xor_self 8
  mul_comm := gmul_comm
  inv := GF.inv
  exists_pair_ne := ⟨(0 : Byte), (1 : Byte), (by decide : (0 : Byte) ≠ 1)⟩
  mul_inv_cancel _ ha := GF.gmul_inv ha
  inv_zero := rfl
  nnqsmul := _
  nnqsmul_def := fun _ _ => rfl
  qsmul := _
  qsmul_def := fun _ _ => rfl

/-- A field whose elements stand for the bytes, with gadd as its sum and gmul as its product. -/
structure ByteField (F : Type) [Field F] where
  val       : Byte → F
  injective : Function.Injective val
  val_xor   : ∀ a b, val (a ^^^ b) = val a + val b
  val_gmul  : ∀ a b, val (gmul params a b) = val a * val b

theorem exists_byteField : ∃ (F : Type) (_ : Field F), Nonempty (ByteField F) :=
  ⟨GF, GF.field, ⟨@ByteField.mk GF GF.field (fun a => a) (fun _ _ h => h) (fun _ _ => rfl) fun _ _ => rfl⟩⟩

section
variable {F : Type} [Field F] (φ : ByteField F)

namespace ByteField

@[simp] theorem val_zero : φ.val 0#8 = 0 := by
  have h := φ.val_xor 0 0
  simpa using h

@[simp] theorem val_gadd (a b : Byte) : φ.val (gadd a b) = φ.val a + φ.val b := φ.val_xor a b

theorem val_eq_zero {a : Byte} : φ.val a = 0 ↔ a = 0 :=
  ⟨fun h => φ.injective (h.trans φ.val_zero.symm), fun h => h ▸ φ.val_zero⟩

@[simp] theorem val_one : φ.val 1#8 = 1 := by
  have h := φ.val_gmul 1 1
  rw [gmul_one] at h
  exact (mul_eq_left₀ (fun h0 => absurd (φ.val_eq_zero.1 h0) (by decide))).1 h.symm

include φ in
/-- Subtraction is addition (R131). -/
theorem neg_eq (x : F) : -x = x := by
  have h := φ.val_xor 1#8 1#8
  rw [BitVec.xor_self, φ.val_zero, φ.val_one] at h
  linear_combination x * h

include φ in
theorem sub_eq_add (x y : F) : x - y = x + y := by rw [sub_eq_add_neg, φ.neg_eq]

theorem val_ginv {a : Byte} (ha : a ≠ 0) : φ.val (ginv params a) = (φ.val a)⁻¹ := by
  refine eq_inv_of_mul_eq_one_right ?_
  rw [← φ.val_gmul, gmul_ginv ha]
  exact φ.val_one

/-- α as an element of the field. -/
def alpha : F := φ.val (gexp params 1)

/-- β = α^11 (R134). -/
def beta : F := φ.alpha ^ 11

theorem alpha_pow (n : ℕ) : φ.val (gexp params (n % 255)) = φ.alpha ^ n := by
  induction n with
  | zero => exact φ.val_one.trans (pow_zero _).symm
  | succ n ih => rw [← gmul_gexp n 1, φ.val_gmul, ih, pow_succ]; rfl

theorem beta_ne_zero : φ.beta ≠ 0 :=
  pow_ne_zero _ fun h => gexp_ne_zero (by omega) (φ.val_eq_zero.1 h)

theorem val_bpow (e : ℤ) : φ.val (bpow params e) = φ.beta ^ e := by
  have hα : φ.alpha ≠ 0 := fun h => φ.beta_ne_zero (by rw [beta, h]; simp)
  have hone : φ.alpha ^ (255 : ℤ) = 1 := by
    have h := φ.alpha_pow 255
    exact_mod_cast h.symm.trans φ.val_one
  have hlt : (11 * e % 255).toNat < 255 := by omega
  have hexp : φ.val (bpow params e) = φ.alpha ^ (11 * e % 255).toNat := by
    rw [← φ.alpha_pow, Nat.mod_eq_of_lt hlt]
    rfl
  rw [hexp, beta, ← zpow_natCast, ← zpow_natCast, ← zpow_mul, Int.toNat_of_nonneg (by omega)]
  conv_rhs => rw [Nat.cast_ofNat, ← Int.emod_add_mul_ediv (11 * e) 255, zpow_add₀ hα, zpow_mul, hone, one_zpow, mul_one]

theorem val_root (i : ℕ) : φ.val (root params i) = φ.beta ^ (112 + i) := by
  rw [root, φ.val_bpow, zpow_natCast]
  rfl

/-- The locators X = β^p of the powers below 255 are distinct (R136). -/
theorem beta_pow_injOn {T : Finset ℕ} (hT : ∀ p ∈ T, p < 255) : Set.InjOn (fun p => φ.beta ^ p) T := by
  intro p hp q hq hpq
  refine bpow_injOn (hT p hp) (hT q hq) (φ.injective ?_)
  rw [φ.val_bpow, φ.val_bpow, zpow_natCast, zpow_natCast]
  exact hpq

/-! ### Lists of bytes as polynomials -/

/-- The polynomial whose coefficients are listed with the constant term first. -/
noncomputable def poly (l : List Byte) : F[X] := l.foldr (fun c p => p * X + C (φ.val c)) 0

theorem poly_cons (c : Byte) (l : List Byte) : φ.poly (c :: l) = φ.poly l * X + C (φ.val c) := rfl

theorem coeff_poly (l : List Byte) (k : ℕ) : (φ.poly l).coeff k = φ.val (l.getD k 0) := by
  induction l generalizing k with
  | nil => simp [poly]
  | cons c l ih =>
    rw [poly_cons]
    cases k with
    | zero => simp
    | succ k => simp [ih]

/-- Horner's rule evaluates the polynomial (R142). -/
theorem val_evalPoly (l : List Byte) (x : Byte) : φ.val (evalPoly params l x) = (φ.poly l).eval (φ.val x) := by
  induction l with
  | nil => simp [poly, evalPoly]
  | cons c l ih =>
    rw [poly_cons, show evalPoly params (c :: l) x = gadd (gmul params (evalPoly params l x) x) c from rfl]
    simp [φ.val_gmul, ih]

/-- The polynomial of a word, element 0 having the highest power (R136). -/
noncomputable def wordPoly (r : List Byte) : F[X] := φ.poly r.reverse

theorem val_evalWord (r : List Byte) (x : Byte) : φ.val (evalWord params r x) = (φ.wordPoly r).eval (φ.val x) := by
  rw [wordPoly, ← φ.val_evalPoly, evalPoly, List.foldr_reverse, evalWord_eq_foldl]

theorem wordPoly_append (r r' : List Byte) : φ.wordPoly (r ++ r') = φ.wordPoly r * X ^ r'.length + φ.wordPoly r' := by
  induction r' using List.reverseRecOn with
  | nil => simp [wordPoly, poly]
  | append_singleton r' c ih =>
    have hsnoc : ∀ w : List Byte, φ.wordPoly (w ++ [c]) = φ.wordPoly w * X + C (φ.val c) := fun w => by
      rw [wordPoly, List.reverse_concat', poly_cons, wordPoly]
    rw [← List.append_assoc, hsnoc, hsnoc, ih]
    simp
    ring

end ByteField

/-! ### The code C -/

/-- The powers of x at which two words of one length differ. -/
def errorPowers (r c : List Byte) : Finset ℕ :=
  (Finset.range r.length).filter fun p => r.reverse.getD p 0 ≠ c.reverse.getD p 0

theorem lt_of_mem_errorPowers {r c : List Byte} {p : ℕ} (hp : p ∈ errorPowers r c) : p < r.length :=
  Finset.mem_range.1 (Finset.mem_filter.1 hp).1

theorem mem_errorPowers {r c : List Byte} (h : r.length = c.length) {p : ℕ} :
    p ∈ errorPowers r c ↔ r.reverse.getD p 0 ≠ c.reverse.getD p 0 := by
  refine ⟨fun hp => (Finset.mem_filter.1 hp).2, fun hne => Finset.mem_filter.2 ⟨?_, hne⟩⟩
  by_contra hlt
  rw [Finset.mem_range] at hlt
  rw [List.getD_eq_default _ _ (by simpa using hlt), List.getD_eq_default _ _ (by simpa [← h] using hlt)] at hne
  exact hne rfl

theorem wordDistance_reverse {r c : List Byte} (h : r.length = c.length) :
    wordDistance r.reverse c.reverse = wordDistance r c := by
  rw [wordDistance, List.zip, ← List.reverse_zipWith h, List.filter_reverse, List.length_reverse]
  rfl

theorem wordDistance_eq_card_filter {r c : List Byte} (h : r.length = c.length) :
    wordDistance r c = ((Finset.range r.length).filter fun i => r.getD i 0 ≠ c.getD i 0).card := by
  have hzip : r.zip c = (List.range r.length).map fun i => (r.getD i 0, c.getD i 0) := by
    refine List.ext_getElem (by simp [h]) fun i hi _ => ?_
    rw [List.length_zip, ← h, min_self] at hi
    simp [hi, h ▸ hi]
  rw [wordDistance, hzip, List.filter_map, List.length_map, Finset.card_def, Finset.filter_val, Finset.range_val,
    Multiset.range, Multiset.filter_coe, Multiset.coe_card]
  congr 2
  funext i
  simp [bne, beq_eq_decide]

theorem card_errorPowers {r c : List Byte} (h : r.length = c.length) :
    (errorPowers r c).card = wordDistance r c := by
  rw [← wordDistance_reverse h, wordDistance_eq_card_filter (by simpa using h), List.length_reverse]
  rfl

/-- Words of one length that differ nowhere are equal. -/
theorem eq_of_errorPowers_eq_empty {r c : List Byte} (h : r.length = c.length) (he : errorPowers r c = ∅) : r = c := by
  refine List.reverse_injective (List.ext_getElem (by simpa using h) fun p hp hp' => ?_)
  rw [← List.getD_eq_getElem _ 0 hp, ← List.getD_eq_getElem _ 0 hp']
  by_contra hne
  simpa [he] using (mem_errorPowers h).2 hne

/-- The error at a power of x. -/
def errorAt (r c : List Byte) (p : ℕ) : F := φ.val (r.reverse.getD p 0) - φ.val (c.reverse.getD p 0)

theorem errorAt_ne_zero {r c : List Byte} {p : ℕ} (hp : p ∈ errorPowers r c) : errorAt φ r c p ≠ 0 :=
  sub_ne_zero.2 fun h => (Finset.mem_filter.1 hp).2 (φ.injective h)

/-- A word is another word and the errors (R138). -/
theorem wordPoly_sub {r c : List Byte} (h : r.length = c.length) :
    φ.wordPoly r - φ.wordPoly c = ∑ p ∈ errorPowers r c, C (errorAt φ r c p) * X ^ p := by
  ext k
  simp only [Polynomial.coeff_sub, Polynomial.finsetSum_coeff, Polynomial.coeff_C_mul, Polynomial.coeff_X_pow,
    mul_ite, mul_one, mul_zero, Finset.sum_ite_eq, ByteField.wordPoly, φ.coeff_poly]
  split
  · rfl
  · next hk => rw [of_not_not (mt (mem_errorPowers h).2 hk), sub_self]

/-- A word is a codeword when its polynomial vanishes at the 32 powers of β (R137). -/
theorem isCodeword_iff {c : List Byte} :
    IsCodeword params c ↔ c.length = 160 ∧ ∀ i, i < 32 → (φ.wordPoly c).eval (φ.beta ^ (112 + i)) = 0 := by
  simp only [IsCodeword, ← φ.val_eq_zero, φ.val_evalWord, φ.val_root, Config.rsn, Config.nroots]

/-- The value of a word at root i is a sum of powers of the locators of its errors (R138). -/
theorem eval_root_eq_powerSum {r c : List Byte} (hr : r.length = 160) (hc : IsCodeword params c) {i : ℕ} (hi : i < 32) :
    (φ.wordPoly r).eval (φ.beta ^ (112 + i)) =
      ∑ p ∈ errorPowers r c, errorAt φ r c p * (φ.beta ^ p) ^ 112 * (φ.beta ^ p) ^ i := by
  obtain ⟨hlen, hzero⟩ := (isCodeword_iff φ).1 hc
  rw [← sub_zero (Polynomial.eval _ _), ← hzero i hi, ← Polynomial.eval_sub, wordPoly_sub φ (hr.trans hlen.symm),
    Polynomial.eval_finsetSum]
  simp only [Polynomial.eval_mul, Polynomial.eval_C, Polynomial.eval_pow, Polynomial.eval_X]
  exact Finset.sum_congr rfl fun p _ => by ring

/-- The bound of R137: a codeword within 32 of a codeword is that codeword. -/
theorem IsCodeword.eq_of_wordDistance_le {c₁ c₂ : List Byte} (h₁ : IsCodeword params c₁) (h₂ : IsCodeword params c₂)
    (hd : wordDistance c₁ c₂ ≤ 32) : c₁ = c₂ := by
  obtain ⟨F, _, ⟨φ⟩⟩ := exists_byteField
  obtain ⟨hlen₁, hzero⟩ := (isCodeword_iff φ).1 h₁
  have hlen : c₁.length = c₂.length := hlen₁.trans h₂.1.symm
  have hinj := φ.beta_pow_injOn (T := errorPowers c₁ c₂) fun p hp => by
    have := lt_of_mem_errorPowers hp
    omega
  have hweights := eq_zero_of_powerSums_eq_zero hinj (show (errorPowers c₁ c₂).card ≤ 32 by rwa [card_errorPowers hlen])
    fun i hi => (eval_root_eq_powerSum φ hlen₁ h₂ hi).symm.trans (hzero i hi)
  refine eq_of_errorPowers_eq_empty hlen (Finset.eq_empty_of_forall_notMem fun p hp => ?_)
  have hβ := pow_ne_zero 112 (pow_ne_zero p φ.beta_ne_zero)
  exact mul_ne_zero (errorAt_ne_zero φ hp) hβ (hweights p hp)

/-- Settles O32: at most 32 errors between codewords would be a trivial combination of powers. -/
theorem codewordsDifferInThirtyThreePositions : Obligations.CodewordsDifferInThirtyThreePositions := by
  intro c₁ c₂ h₁ h₂ hne
  by_contra hlt
  exact hne (h₁.eq_of_wordDistance_le h₂ (by omega))

/-! ### The systematic encoder -/

theorem length_generator (P : Params) (n : ℕ) : (generator P n).length = n + 1 := by
  cases n <;> simp [generator]

/-- The coefficients of the generator with one more root (R135), past its length too. -/
theorem getD_generator_succ (n k : ℕ) : (generator params (n + 1)).getD k 0 =
    gadd (if k = 0 then 0 else (generator params n).getD (k - 1) 0)
      (gmul params (root params n) ((generator params n).getD k 0)) := by
  by_cases hk : k < n + 2
  · simp [generator, hk]
  · rw [List.getD_eq_default _ _ (by rw [length_generator]; omega), if_neg (by omega),
      List.getD_eq_default _ _ (by rw [length_generator]; omega),
      List.getD_eq_default _ _ (by rw [length_generator]; omega), gmul_zero]
    rfl

/-- g(x) is the product of the x - ROOT[i] (R135). -/
theorem poly_generator (n : ℕ) :
    φ.poly (generator params n) = ∏ i ∈ Finset.range n, (X - C (φ.val (root params i))) := by
  induction n with
  | zero => simp [generator, ByteField.poly]
  | succ n ih =>
    rw [Finset.prod_range_succ, ← ih]
    ext k
    rw [φ.coeff_poly, getD_generator_succ, φ.val_gadd, φ.val_gmul]
    cases k with
    | zero => simp [Polynomial.mul_coeff_zero, φ.coeff_poly, φ.neg_eq, mul_comm]
    | succ k => simp [Polynomial.coeff_mul_X_sub_C, φ.coeff_poly, φ.sub_eq_add, mul_comm]

theorem getD_generator_self (n : ℕ) : (generator params n).getD n 0 = 1 := by
  induction n with
  | zero => rfl
  | succ n ih =>
    rw [getD_generator_succ, if_neg (by omega), Nat.add_sub_cancel, ih,
      List.getD_eq_default _ _ (length_generator params n).le, gmul_zero]
    rfl

/-- One data symbol of the systematic encoder (R152). -/
def encoderShift (rem : List Byte) (d : Byte) : List Byte :=
  (List.range 32).map fun k =>
    rem.getD (k + 1) 0 ^^^ gmul params (d ^^^ rem.getD 0 0) ((generator params 32).getD (31 - k) 0)

theorem rsParity_eq_foldl (data : List Byte) :
    rsParity params data = data.foldl encoderShift (List.replicate 32 0) := rfl

theorem length_encoderShift (rem : List Byte) (d : Byte) : (encoderShift rem d).length = 32 := by
  simp [encoderShift]

/-- The coefficients of a word from the last element on. -/
theorem coeff_wordPoly {r : List Byte} {k : ℕ} (hk : k < r.length) :
    (φ.wordPoly r).coeff k = φ.val (r.getD (r.length - 1 - k) 0) := by
  rw [ByteField.wordPoly, φ.coeff_poly, List.getD_eq_getElem _ _ (by simpa using hk), List.getElem_reverse,
    List.getD_eq_getElem]

theorem coeff_wordPoly_of_le {r : List Byte} {k : ℕ} (hk : r.length ≤ k) : (φ.wordPoly r).coeff k = 0 := by
  rw [ByteField.wordPoly, φ.coeff_poly, List.getD_eq_default _ _ (by simpa using hk)]
  exact φ.val_zero

/-- The register's word, moved on by one power of x (R152). -/
theorem coeff_X_mul_wordPoly {rem : List Byte} (hrem : rem.length = 32) {k : ℕ} (hk : k ≤ 32) :
    (X * φ.wordPoly rem).coeff k = φ.val (rem.getD (32 - k) 0) := by
  cases k with
  | zero =>
    rw [Polynomial.mul_coeff_zero, Polynomial.coeff_X_zero, zero_mul, List.getD_eq_default _ _ hrem.le]
    exact φ.val_zero.symm
  | succ k =>
    rw [Polynomial.coeff_X_mul, coeff_wordPoly φ (by omega), hrem, show 32 - 1 - k = 32 - (k + 1) by omega]

/-- The register moves on by one power of x and a multiple of g cancels its top term (R152). -/
theorem wordPoly_encoderShift {rem : List Byte} (hrem : rem.length = 32) (d : Byte) :
    φ.wordPoly (encoderShift rem d) = X * φ.wordPoly rem + C (φ.val d) * X ^ 32 +
      C (φ.val (d ^^^ rem.getD 0 0)) * φ.poly (generator params 32) := by
  have hlen := length_encoderShift rem d
  ext k
  rw [Polynomial.coeff_add, Polynomial.coeff_add, Polynomial.coeff_C_mul_X_pow, Polynomial.coeff_C_mul, φ.coeff_poly]
  rcases lt_trichotomy k 32 with hk | rfl | hk
  · rw [coeff_X_mul_wordPoly φ hrem hk.le, coeff_wordPoly φ (hlen.symm ▸ hk), if_neg hk.ne, add_zero, ← φ.val_gmul,
      ← φ.val_xor, hlen, encoderShift]
    simp [show 31 - k < 32 by omega, show 31 - k + 1 = 32 - k by omega, show 31 - (31 - k) = k by omega]
  · rw [coeff_X_mul_wordPoly φ hrem le_rfl, coeff_wordPoly_of_le φ hlen.le, if_pos rfl, getD_generator_self,
      Nat.sub_self, ← φ.val_xor, ← φ.val_gmul, gmul_one, ← φ.val_xor, BitVec.xor_comm d, BitVec.xor_self]
    exact φ.val_zero.symm
  · obtain ⟨k, rfl⟩ : ∃ j, k = j + 1 := ⟨k - 1, by omega⟩
    rw [coeff_wordPoly_of_le φ (by omega), if_neg (by omega), Polynomial.coeff_X_mul, coeff_wordPoly_of_le φ (by omega),
      List.getD_eq_default _ _ ((length_generator params 32).trans_le (by omega)), zero_add, zero_add]
    exact (by simp : (0 : F) = φ.val (d ^^^ rem.getD 0 0) * φ.val 0#8)

/-- At a root of g the register is the data's word times x^32 (R152: the remainder of the division by g). -/
theorem eval_foldl_encoderShift {x : F} (hx : (φ.poly (generator params 32)).eval x = 0) (data : List Byte)
    {rem : List Byte} (hrem : rem.length = 32) :
    (φ.wordPoly (data.foldl encoderShift rem)).eval x =
      (φ.wordPoly rem).eval x * x ^ data.length + (φ.wordPoly data).eval x * x ^ 32 := by
  induction data generalizing rem with
  | nil => simp [ByteField.wordPoly, ByteField.poly]
  | cons d data ih =>
    have hword : φ.wordPoly (d :: data) = C (φ.val d) * X ^ data.length + φ.wordPoly data := by
      rw [← List.singleton_append, φ.wordPoly_append]
      simp [ByteField.wordPoly, ByteField.poly]
    rw [List.foldl_cons, ih (length_encoderShift rem d), wordPoly_encoderShift φ hrem, hword]
    simp [hx]
    ring

theorem eval_generator_root {i : ℕ} (hi : i < 32) :
    (φ.poly (generator params 32)).eval (φ.beta ^ (112 + i)) = 0 := by
  rw [poly_generator, Polynomial.eval_prod]
  exact Finset.prod_eq_zero (Finset.mem_range.2 hi) (by simp [φ.val_root])

theorem wordPoly_zero (n : ℕ) : φ.wordPoly (List.replicate n 0) = 0 := by
  induction n with
  | zero => rfl
  | succ n ih =>
    rw [List.replicate_succ', φ.wordPoly_append, ih]
    simp [ByteField.wordPoly, ByteField.poly]

end

theorem length_rsParity (data : List Byte) : (rsParity params data).length = 32 := by
  rw [rsParity_eq_foldl]
  induction data using List.reverseRecOn with
  | nil => exact List.length_replicate
  | append_singleton data d _ => rw [List.foldl_concat, length_encoderShift]

/-- The systematic encoder's word is a codeword (R152). -/
theorem isCodeword_rsEncode {data : List Byte} (hdata : data.length = 128) :
    IsCodeword params (rsEncode params data) := by
  obtain ⟨F, _, ⟨φ⟩⟩ := exists_byteField
  refine (isCodeword_iff φ).2 ⟨by rw [rsEncode, List.length_append, hdata, length_rsParity], fun i hi => ?_⟩
  rw [rsEncode, φ.wordPoly_append, length_rsParity, rsParity_eq_foldl, Polynomial.eval_add,
    eval_foldl_encoderShift φ (eval_generator_root φ hi) data List.length_replicate, wordPoly_zero]
  simp [← φ.sub_eq_add]

theorem wordDistance_append_left (a b c : List Byte) : wordDistance (a ++ b) (a ++ c) = wordDistance b c := by
  rw [wordDistance, List.zip_append rfl, List.filter_append, List.length_append, wordDistance]
  simp [List.zip, List.zipWith_self]

theorem wordDistance_le (r c : List Byte) : wordDistance r c ≤ r.length :=
  (List.length_filter_le _ _).trans (by simp)

/-- Settles O33: the register holds the remainder of the division by g; two codewords with the same data differ in at
most the 32 parity symbols. -/
theorem encoderGivesTheCodewordOfItsData : Obligations.EncoderGivesTheCodewordOfItsData := by
  intro data hdata
  have hcode := isCodeword_rsEncode hdata
  refine ⟨hcode, fun c hc htake => hc.eq_of_wordDistance_le hcode ?_⟩
  have hlen : (c.drop 128).length = 32 := by
    rw [List.length_drop, hc.1]
    rfl
  rw [← List.take_append_drop 128 c, htake, rsEncode, wordDistance_append_left]
  exact (wordDistance_le _ _).trans hlen.le

end Sys2Proof.Machine
end

section
/-! PROOFS. The Berlekamp-Massey unit keeps the invariant of R140, so what it returns is the shortest recurrence of the
syndromes (O35). -/

namespace Sys2Proof.Machine
open Polynomial

section
variable {F : Type} [Field F] (φ : ByteField F)

/-- A list of bytes as a sequence in the field, zero past its end. -/
def ByteField.seq (l : List Byte) (i : ℕ) : F := φ.val (l.getD i 0)

theorem ByteField.val_foldl_xor (f : ℕ → Byte) (a : Byte) (m : ℕ) :
    φ.val ((List.range m).foldl (fun d k => d ^^^ f k) a) = φ.val a + ∑ k ∈ Finset.range m, φ.val (f k) := by
  induction m with
  | zero => simp
  | succ m ih =>
    rw [List.range_succ, List.foldl_append, List.foldl_cons, List.foldl_nil, φ.val_xor, ih, Finset.sum_range_succ,
      add_assoc]

/-- The discrepancy of R140 is a coefficient of Λ·S. -/
theorem val_discrepancy {syn lam : List Byte} {len n : ℕ} (h0 : (φ.poly lam).coeff 0 = 1)
    (hdeg : (φ.poly lam).natDegree ≤ len) (hn : len ≤ n) :
    φ.val (discrepancy params syn lam len n) = seriesCoeff (φ.seq syn) (φ.poly lam) n := by
  have htail : ∀ k ∈ Finset.range n, k ∉ Finset.range len →
      (φ.poly lam).coeff (k + 1) * φ.seq syn (n - (k + 1)) = 0 := fun k _ hk => by
    rw [Polynomial.coeff_eq_zero_of_natDegree_lt (by rw [Finset.mem_range] at hk; omega), zero_mul]
  rw [discrepancy, φ.val_foldl_xor, seriesCoeff_eq_sum, Finset.sum_range_succ', h0, one_mul, add_comm,
    ← Finset.sum_subset (Finset.range_mono hn) htail]
  simp only [φ.val_gmul, φ.coeff_poly, ByteField.seq, Nat.sub_zero]

/-- The correction of LAM (R140), when x^MSH · BPOL fits in 33 coefficients. -/
theorem poly_addShifted {lam bpol : List Byte} (q : Byte) {msh : ℕ} (hlam : lam.length = 33)
    (hbpol : (X ^ msh * φ.poly bpol).natDegree ≤ 32) :
    φ.poly (addShifted params lam bpol q msh) = φ.poly lam - C (φ.val q) * (X ^ msh * φ.poly bpol) := by
  ext k
  rw [Polynomial.coeff_sub, Polynomial.coeff_C_mul, φ.coeff_poly, φ.coeff_poly]
  by_cases hk : k < 33
  · rw [Polynomial.coeff_X_pow_mul', φ.coeff_poly, addShifted]
    by_cases hm : msh ≤ k <;> simp [hk, hm, φ.val_xor, φ.val_gmul, φ.sub_eq_add]
  · rw [List.getD_eq_default _ _ (by rw [length_addShifted]; omega), List.getD_eq_default _ _ (by omega),
      Polynomial.coeff_eq_zero_of_natDegree_lt (by omega), mul_zero, sub_zero]

/-- What holds of the working set before iteration n (R140). -/
structure BmState.Invariant (syn : List Byte) (n : ℕ) (st : BmState) : Prop where
  length_lam : st.lam.length = 33
  recurrence : BmInvariant (φ.seq syn) n st.len (φ.poly st.lam) (X ^ st.msh * φ.poly st.bpol) (φ.val st.bdisc)

theorem bmStart_invariant (syn : List Byte) : BmState.Invariant φ syn 0 bmStart where
  length_lam := rfl
  recurrence := by
    have hone : φ.poly onePoly = 1 := by
      ext k
      rw [φ.coeff_poly, Polynomial.coeff_one]
      cases k with
      | zero => exact φ.val_one
      | succ k =>
        rw [onePoly, List.getD_cons_succ, List.getD_eq_getElem?_getD, List.getElem?_getD_replicate_default_eq,
          if_neg (Nat.succ_ne_zero k)]
        exact φ.val_zero
    have hbdisc : φ.val 1 = 1 := φ.val_one
    simp only [bmStart, hone, hbdisc, pow_one, mul_one]
    exact bmInvariant_start _

theorem BmState.Invariant.step {syn : List Byte} {n : ℕ} {st : BmState} (h : BmState.Invariant φ syn n st)
    (hn : n < 32) : BmState.Invariant φ syn (n + 1) (bmStep params syn st n) := by
  obtain ⟨hlen, hrec⟩ := h
  have hdisc := val_discrepancy φ (syn := syn) hrec.generates.coeff_zero hrec.generates.natDegree_le hrec.length_le
  have hbdisc : st.bdisc ≠ 0 := fun h0 => hrec.b_ne_zero (φ.val_eq_zero.2 h0)
  have hlam := poly_addShifted φ (gmul params (discrepancy params syn st.lam st.len n) (ginv params st.bdisc))
    hlen (by have := hrec.B_natDegree; omega : (X ^ st.msh * φ.poly st.bpol).natDegree ≤ 32)
  rw [φ.val_gmul, φ.val_ginv hbdisc, hdisc, ← div_eq_mul_inv] at hlam
  unfold bmStep
  simp only []
  split
  · next hd =>
    refine ⟨hlen, ?_⟩
    rw [pow_succ', mul_assoc]
    exact hrec.step_of_eq_zero (hdisc.symm.trans (φ.val_eq_zero.2 hd))
  · next hd =>
    split
    · next hgrow =>
      refine ⟨length_addShifted .., ?_⟩
      rw [hlam, pow_one, hdisc]
      exact hrec.step_of_growth (hdisc ▸ fun h0 => hd (φ.val_eq_zero.1 h0)) hgrow
    · next hroom =>
      refine ⟨length_addShifted .., ?_⟩
      rw [hlam, pow_succ', mul_assoc]
      exact hrec.step_of_room (by omega)

theorem berlekampMassey_invariant (syn : List Byte) :
    BmState.Invariant φ syn 32 (berlekampMassey params syn) := by
  have hrun : ∀ n, n ≤ 32 → BmState.Invariant φ syn n ((List.range n).foldl (bmStep params syn) bmStart) := by
    intro n
    induction n with
    | zero => exact fun _ => bmStart_invariant φ syn
    | succ n ih =>
      intro hn
      rw [List.range_succ, List.foldl_append]
      exact (ih (by omega)).step φ hn
  exact hrun 32 le_rfl

end

/-- Settles O35: the discrepancies of the result are coefficients of Λ·S, and the invariant holds after the last
iteration. -/
theorem berlekampMasseyGeneratesSyndromes : Obligations.BerlekampMasseyGeneratesSyndromes := by
  intro syn _
  obtain ⟨F, _, ⟨φ⟩⟩ := exists_byteField
  obtain ⟨hlen, hrec⟩ := berlekampMassey_invariant φ syn
  have h0 := hrec.generates.coeff_zero
  refine ⟨hlen, φ.injective ?_, hrec.length_le, fun n hn hlt => φ.val_eq_zero.1 ?_⟩
  · rw [← φ.coeff_poly, h0]
    exact φ.val_one.symm
  · rw [val_discrepancy φ h0 hrec.generates.natDegree_le hn, hrec.generates.discrepancy n hn hlt]

end Sys2Proof.Machine
end

section
/-! PROOFS. The Chien search, Forney's formula and the corrector: what RSDEC accepts is a codeword at the distance it
reports (O36), and it accepts every word within 16 of a codeword (O37); with zero syndromes nothing changes (O34). -/

namespace Sys2Proof.Machine
open Polynomial

section
variable {F : Type} [Field F] (φ : ByteField F)

/-! ### The Chien search -/

theorem val_bpow_neg (p : ℕ) : φ.val (bpow params (-(p : ℤ))) = (φ.beta ^ p)⁻¹ := by
  rw [φ.val_bpow, zpow_neg, zpow_natCast]

/-- The search finds the powers of the inverse roots (R142). -/
theorem mem_chienSearch {lam : List Byte} {p : ℕ} :
    p ∈ chienSearch params lam ↔ p < 255 ∧ (φ.poly lam).eval (φ.beta ^ p)⁻¹ = 0 := by
  simp [chienSearch, ← val_bpow_neg, ← φ.val_evalPoly, φ.val_eq_zero]

theorem nodup_chienSearch (P : Params) (lam : List Byte) : (chienSearch P lam).Nodup := List.nodup_range.filter _

/-! ### The error values -/

/-- The list of R143 is the formal derivative, since even multiples vanish. -/
theorem poly_derivative {lam : List Byte} (hlam : lam.length = 33) :
    φ.poly (derivative lam) = Polynomial.derivative (φ.poly lam) := by
  have htwo : (2 : F) = 0 := by linear_combination φ.neg_eq (-1)
  ext k
  rw [φ.coeff_poly, Polynomial.coeff_derivative, φ.coeff_poly]
  have hparity : ((k : F) + 1) = if k % 2 = 0 then 1 else 0 := by
    obtain ⟨m, rfl | rfl⟩ : ∃ m, k = 2 * m ∨ k = 2 * m + 1 := ⟨k / 2, by omega⟩
    · simp [htwo]
    · rw [if_neg (by omega)]
      push_cast
      linear_combination (m + 1 : F) * htwo
  rw [hparity]
  by_cases hk : k < 31
  · by_cases heven : k % 2 = 0 <;> simp [derivative, hk, heven]
  · rw [List.getD_eq_default _ _ (by simpa [derivative] using hk)]
    by_cases heven : k % 2 = 0
    · rw [List.getD_eq_default _ _ (by omega)]
      simp
    · simp [heven]

/-- The evaluator polynomial is Λ·S up to x^32 (R143). -/
theorem coeff_omega (syn lam : List Byte) (j : ℕ) :
    (φ.poly (omega params syn lam)).coeff j = if j < 32 then seriesCoeff (φ.seq syn) (φ.poly lam) j else 0 := by
  rw [φ.coeff_poly]
  split
  · next hj =>
    have hget : (omega params syn lam).getD j 0 =
        (List.range (j + 1)).foldl (fun o k => o ^^^ gmul params (syn.getD (j - k) 0) (lam.getD k 0)) 0 := by
      simp [omega, hj]
    rw [hget, φ.val_foldl_xor, seriesCoeff_eq_sum]
    simp [φ.val_gmul, φ.coeff_poly, ByteField.seq, mul_comm]
  · next hj =>
    rw [List.getD_eq_default _ _ (by rw [length_omega]; omega)]
    exact φ.val_zero

/-- The error value at power p where the denominator is not zero (R143). -/
def forneyValue (P : Params) (lam omg : List Byte) (p : ℕ) : Byte :=
  let xi := bpow P (-(p : Int))
  gmul P (gmul P (evalPoly P omg xi) (ginv P (evalPoly P (derivative lam) xi))) (bpow P ((1 - (P.fcr : Int)) * p))

theorem errorValues_of_ne_zero {P : Params} {lam omg : List Byte} {ps : List ℕ}
    (h : ∀ p ∈ ps, evalPoly P (derivative lam) (bpow P (-(p : Int))) ≠ 0) :
    errorValues P lam omg ps = some (ps.map fun p => (p, forneyValue P lam omg p)) := by
  induction ps with
  | nil => rfl
  | cons p ps ih =>
    have hp : errorValue P lam omg p = some (forneyValue P lam omg p) := if_neg (h p List.mem_cons_self)
    rw [errorValues, hp, ih fun q hq => h q (List.mem_cons_of_mem p hq)]
    rfl

/-- The factor of R143 takes the first root into account: the weight of the powers of the locator. -/
theorem val_forneyValue {lam omg : List Byte} (hlam : lam.length = 33) {p : ℕ}
    (hden : (Polynomial.derivative (φ.poly lam)).eval (φ.beta ^ p)⁻¹ ≠ 0) :
    φ.val (forneyValue params lam omg p) * (φ.beta ^ p) ^ 112 = φ.beta ^ p *
      ((φ.poly omg).eval (φ.beta ^ p)⁻¹ / (Polynomial.derivative (φ.poly lam)).eval (φ.beta ^ p)⁻¹) := by
  have hval : φ.val (evalPoly params (derivative lam) (bpow params (-(p : ℤ)))) =
      (Polynomial.derivative (φ.poly lam)).eval (φ.beta ^ p)⁻¹ := by
    rw [φ.val_evalPoly, poly_derivative φ hlam, val_bpow_neg]
  have hpow : φ.val (bpow params ((1 - 112) * (p : ℤ))) * (φ.beta ^ p) ^ 112 = φ.beta ^ p := by
    rw [φ.val_bpow, ← pow_mul, ← zpow_natCast, ← zpow_natCast, ← zpow_add₀ φ.beta_ne_zero]
    congr 1
    push_cast
    ring
  have hne : evalPoly params (derivative lam) (bpow params (-(p : ℤ))) ≠ 0 := fun h0 => hden (by
    rw [← hval, h0]
    exact φ.val_zero)
  rw [forneyValue, φ.val_gmul, φ.val_gmul, φ.val_ginv hne, hval, φ.val_evalPoly, val_bpow_neg, mul_assoc,
    show (params.fcr : ℤ) = 112 from rfl, hpow]
  ring

/-! ### The corrector -/

/-- The corrector's line for power p adds the error value to the coefficient of x^p (R136, R144). -/
theorem wordPoly_set {r : List Byte} (hr : r.length = 160) {p : ℕ} (hp : p < 160) (v : Byte) :
    φ.wordPoly (r.set (160 - 1 - p) (r.getD (160 - 1 - p) 0 ^^^ v)) = φ.wordPoly r + C (φ.val v) * X ^ p := by
  ext k
  rw [Polynomial.coeff_add, Polynomial.coeff_C_mul_X_pow]
  by_cases hk : k < 160
  · rw [coeff_wordPoly φ (by simpa [hr] using hk), coeff_wordPoly φ (hr.symm ▸ hk), List.length_set, hr]
    by_cases hkp : k = p
    · subst hkp
      simp [hr, show 160 - 1 - k < 160 by omega, φ.val_xor]
    · simp [hkp, List.getElem?_set_ne (show 160 - 1 - p ≠ 160 - 1 - k by omega)]
  · rw [coeff_wordPoly_of_le φ (by simpa [hr] using hk), coeff_wordPoly_of_le φ (by omega), if_neg (by omega), add_zero]

/-- The corrector adds the errors to the word (R144). -/
theorem wordPoly_applyErrors {r : List Byte} (hr : r.length = 160) {es : List (ℕ × Byte)} (hes : ∀ e ∈ es, e.1 < 160) :
    φ.wordPoly (applyErrors r es) = φ.wordPoly r + (es.map fun e => C (φ.val e.2) * X ^ e.1).sum := by
  induction es generalizing r with
  | nil => simp [applyErrors]
  | cons e es ih =>
    obtain ⟨p, v⟩ := e
    rw [applyErrors, ih (by simpa using hr) fun e he => hes e (List.mem_cons_of_mem _ he), List.map_cons, List.sum_cons,
      ← add_assoc, ← wordPoly_set φ hr (hes (p, v) List.mem_cons_self) v]

end

/-! ### The reference algorithm -/

/-- What the Berlekamp-Massey unit finds for a received word (R140). -/
def locatorOf (r : List Byte) : BmState := berlekampMassey params (syndromes params r)

/-- The powers the Chien search finds for a received word (R142). -/
def foundPowers (r : List Byte) : List ℕ := chienSearch params (locatorOf r).lam

/-- The error value at a power for a received word (R143). -/
def foundValue (r : List Byte) (p : ℕ) : Byte :=
  forneyValue params (locatorOf r).lam (omega params (syndromes params r) (locatorOf r).lam) p

/-- The received word with the errors found removed (R144). -/
def correctedWord (r : List Byte) : List Byte := applyErrors r ((foundPowers r).map fun p => (p, foundValue r p))

/-- The checks of R141 and R142: the length is at most 16, the locator has as many roots, all of them in the word. -/
structure Located (r : List Byte) : Prop where
  len_le  : (locatorOf r).len ≤ 16
  roots   : (foundPowers r).length = (locatorOf r).len
  in_word : ∀ p ∈ foundPowers r, p < 160

section
variable {F : Type} [Field F] (φ : ByteField F)

theorem seq_syndromes (r : List Byte) {i : ℕ} (hi : i < 32) :
    φ.seq (syndromes params r) i = (φ.wordPoly r).eval (φ.beta ^ (112 + i)) := by
  rw [← φ.val_root, ← φ.val_evalWord]
  simp [ByteField.seq, syndromes, hi]

theorem locatorOf_invariant (r : List Byte) : BmState.Invariant φ (syndromes params r) 32 (locatorOf r) :=
  berlekampMassey_invariant φ (syndromes params r)

theorem nodup_foundPowers (r : List Byte) : (foundPowers r).Nodup := nodup_chienSearch _ _

theorem card_foundPowers (r : List Byte) : (foundPowers r).toFinset.card = (foundPowers r).length :=
  List.toFinset_card_of_nodup (nodup_foundPowers r)

theorem mem_foundPowers {r : List Byte} {p : ℕ} :
    p ∈ (foundPowers r).toFinset ↔ p < 255 ∧ (φ.poly (locatorOf r).lam).eval (φ.beta ^ p)⁻¹ = 0 :=
  List.mem_toFinset.trans (mem_chienSearch φ)

/-- The locators of the powers found are distinct. -/
theorem foundPowers_injOn (r : List Byte) : Set.InjOn (fun p => φ.beta ^ p) (foundPowers r).toFinset :=
  φ.beta_pow_injOn fun _ hp => ((mem_foundPowers φ).1 hp).1

section
variable {r : List Byte} (h : Located r)
include h

/-- As many roots as its length: the locator is a recurrence of that many locators. -/
theorem Located.generates :
    Generates (φ.seq (syndromes params r)) 32 (foundPowers r).toFinset.card (φ.poly (locatorOf r).lam) := by
  rw [card_foundPowers, h.roots]
  exact (locatorOf_invariant φ r).recurrence.generates

theorem Located.derivative_ne_zero {p : ℕ} (hp : p ∈ (foundPowers r).toFinset) :
    (Polynomial.derivative (φ.poly (locatorOf r).lam)).eval (φ.beta ^ p)⁻¹ ≠ 0 :=
  (h.generates φ).eval_derivative_ne_zero (foundPowers_injOn φ r) (fun _ hq => ((mem_foundPowers φ).1 hq).2) p hp

/-- The syndromes of the errors found are those of the word (R148). -/
theorem Located.syndrome_eq_powerSum {i : ℕ} (hi : i < 32) : φ.seq (syndromes params r) i =
    ∑ p ∈ (foundPowers r).toFinset, φ.val (foundValue r p) * (φ.beta ^ p) ^ 112 * (φ.beta ^ p) ^ i := by
  rw [(h.generates φ).eq_powerSum (fun p _ => pow_ne_zero p φ.beta_ne_zero) (foundPowers_injOn φ r)
    (fun _ hq => ((mem_foundPowers φ).1 hq).2) (coeff_omega φ (syndromes params r) (locatorOf r).lam) i hi]
  refine Finset.sum_congr rfl fun p hp => ?_
  rw [φ.neg_eq, foundValue,
    val_forneyValue φ (locatorOf_invariant φ r).length_lam (h.derivative_ne_zero φ hp)]

/-- No error value is zero, or the recurrence would not be the shortest (R143). -/
theorem Located.val_foundValue_ne_zero {p : ℕ} (hp : p ∈ (foundPowers r).toFinset) : φ.val (foundValue r p) ≠ 0 := by
  refine left_ne_zero_of_mul (weight_ne_zero_of_shortest (s := φ.seq (syndromes params r)) (n := 32)
    (fun p _ => pow_ne_zero p φ.beta_ne_zero) (fun ν σ hσ => ?_) (fun i hi => h.syndrome_eq_powerSum φ hi) p hp)
  rw [card_foundPowers, h.roots]
  exact (locatorOf_invariant φ r).recurrence.shortest ν σ hσ

theorem Located.wordPoly_correctedWord (hr : r.length = 160) : φ.wordPoly (correctedWord r) =
    φ.wordPoly r + ∑ p ∈ (foundPowers r).toFinset, C (φ.val (foundValue r p)) * X ^ p := by
  rw [correctedWord, wordPoly_applyErrors φ hr (by simpa using h.in_word), List.map_map,
    List.sum_toFinset _ (nodup_foundPowers r)]
  simp only [Function.comp_def]

theorem Located.isCodeword_correctedWord (hr : r.length = 160) : IsCodeword params (correctedWord r) := by
  obtain ⟨F, _, ⟨φ⟩⟩ := exists_byteField
  refine (isCodeword_iff φ).2 ⟨by rw [correctedWord, length_applyErrors, hr], fun i hi => ?_⟩
  rw [h.wordPoly_correctedWord φ hr, Polynomial.eval_add, ← seq_syndromes φ r hi, h.syndrome_eq_powerSum φ hi,
    Polynomial.eval_finsetSum, ← φ.sub_eq_add, sub_eq_zero]
  refine Finset.sum_congr rfl fun p _ => ?_
  simp only [Polynomial.eval_mul, Polynomial.eval_C, Polynomial.eval_pow, Polynomial.eval_X]
  ring

/-- RSDEC changes as many symbols as it reports (R145). -/
theorem Located.wordDistance_correctedWord (hr : r.length = 160) :
    wordDistance r (correctedWord r) = (locatorOf r).len := by
  obtain ⟨F, _, ⟨φ⟩⟩ := exists_byteField
  have hlen : r.length = (correctedWord r).length := by rw [correctedWord, length_applyErrors]
  have hpowers : errorPowers r (correctedWord r) = (foundPowers r).toFinset := by
    ext p
    have hcoeff := congrArg (Polynomial.coeff · p) (h.wordPoly_correctedWord φ hr)
    simp only [Polynomial.coeff_add, Polynomial.finsetSum_coeff, Polynomial.coeff_C_mul, Polynomial.coeff_X_pow,
      mul_ite, mul_one, mul_zero, Finset.sum_ite_eq, ByteField.wordPoly, φ.coeff_poly] at hcoeff
    rw [mem_errorPowers hlen, ← φ.injective.ne_iff, hcoeff]
    by_cases hp : p ∈ (foundPowers r).toFinset
    · simpa [hp] using h.val_foundValue_ne_zero φ hp
    · simp [hp]
  rw [← card_errorPowers hlen, hpowers, card_foundPowers, h.roots]

/-- No denominator is zero, so every error found has its value (R143). -/
theorem Located.errorValues_eq :
    errorValues params (locatorOf r).lam (omega params (syndromes params r) (locatorOf r).lam) (foundPowers r) =
      some ((foundPowers r).map fun p => (p, foundValue r p)) := by
  obtain ⟨F, _, ⟨φ⟩⟩ := exists_byteField
  refine errorValues_of_ne_zero fun p hp h0 => h.derivative_ne_zero φ (List.mem_toFinset.2 hp) ?_
  rw [← poly_derivative φ (locatorOf_invariant φ r).length_lam, ← val_bpow_neg, ← φ.val_evalPoly, h0]
  exact φ.val_zero

end

/-- Within 16 of a codeword the locator is that of the errors, so every check passes (R148). -/
theorem located_of_wordDistance_le {r c : List Byte} (hr : r.length = 160) (hc : IsCodeword params c)
    (hd : wordDistance r c ≤ 16) : Located r := by
  obtain ⟨F, _, ⟨φ⟩⟩ := exists_byteField
  have hrec := (locatorOf_invariant φ r).recurrence
  have hcard := card_errorPowers (hr.trans hc.1.symm)
  have hlt : ∀ p ∈ errorPowers r c, p < 160 := fun p hp => hr ▸ lt_of_mem_errorPowers hp
  have hβ : ∀ p ∈ errorPowers r c, φ.beta ^ p ≠ 0 := fun p _ => pow_ne_zero p φ.beta_ne_zero
  have hinj := φ.beta_pow_injOn (T := errorPowers r c) fun p hp => (hlt p hp).trans (by omega)
  have hs : ∀ i, i < 32 → φ.seq (syndromes params r) i =
      ∑ p ∈ errorPowers r c, errorAt φ r c p * (φ.beta ^ p) ^ 112 * (φ.beta ^ p) ^ i := fun i hi =>
    (seq_syndromes φ r hi).trans (eval_root_eq_powerSum φ hr hc hi)
  have hlen : (locatorOf r).len ≤ (errorPowers r c).card := hrec.shortest _ _ (generates_locatorPoly hβ hs)
  have hroot := hrec.generates.eval_inv_eq_zero hβ hinj
    (fun p hp => mul_ne_zero (errorAt_ne_zero φ hp) (pow_ne_zero _ (hβ p hp))) hs
    (show (errorPowers r c).card + (locatorOf r).len ≤ 32 by omega)
  have hsub : errorPowers r c ⊆ (foundPowers r).toFinset := fun p hp =>
    (mem_foundPowers φ).2 ⟨(hlt p hp).trans (by omega), hroot p hp⟩
  have hfound : (foundPowers r).toFinset.card ≤ (locatorOf r).len :=
    hrec.generates.card_roots_le (foundPowers_injOn φ r) fun p hp => ((mem_foundPowers φ).1 hp).2
  have heq : errorPowers r c = (foundPowers r).toFinset := Finset.eq_of_subset_of_card_le hsub (hfound.trans hlen)
  refine ⟨by omega, ?_, fun p hp => hlt p (heq ▸ List.mem_toFinset.2 hp)⟩
  rw [← card_foundPowers]
  exact hfound.antisymm (heq ▸ hlen)

end

/-- What the reference algorithm answers (R150). -/
theorem rsDecode_eq (r : List Byte) :
    ((∀ i, i < 32 → evalWord params r (root params i) = 0) ∧ rsDecode params r = .corrected r 0) ∨
    (Located r ∧ rsDecode params r = .corrected (correctedWord r) (locatorOf r).len) ∨
    (¬ Located r ∧ rsDecode params r = .uncorrectable) := by
  unfold rsDecode
  simp only []
  split
  · next hz => exact .inl ⟨by simpa [syndromes] using hz, rfl⟩
  · refine .inr ?_
    split
    · next hlen => exact .inr ⟨fun h => absurd h.len_le (not_le.2 hlen), rfl⟩
    · next hlen =>
      split
      · next hroots => exact .inr ⟨fun h => hroots h.roots, rfl⟩
      · next hroots =>
        split
        · next hany =>
          obtain ⟨p, hp, hle⟩ := List.any_eq_true.1 hany
          exact .inr ⟨fun h => absurd (h.in_word p hp) (by simpa using hle), rfl⟩
        · next hany =>
          have h : Located r := ⟨not_lt.1 hlen, of_not_not hroots, fun p hp =>
            not_le.1 fun hle => hany (List.any_eq_true.2 ⟨p, hp, by simpa using hle⟩)⟩
          refine .inl ⟨h, ?_⟩
          split
          · next hes => rw [Option.some.inj (hes.symm.trans h.errorValues_eq), correctedWord, locatorOf]
          · next hnone => exact absurd (hnone.symm.trans h.errorValues_eq) nofun

/-- Zero syndromes: the block is error-free (R139). -/
theorem rsDecode_of_roots {r : List Byte} (h : ∀ i, i < 32 → evalWord params r (root params i) = 0) :
    rsDecode params r = .corrected r 0 := by
  have hall : (syndromes params r).all (· == 0) = true := by simpa [syndromes] using h
  simp only [rsDecode, hall, if_true]

theorem wordDistance_self (r : List Byte) : wordDistance r r = 0 := by
  rw [← List.append_nil r, wordDistance_append_left]
  rfl

/-- The reference algorithm meets the contract (R130, R148). -/
theorem rsDecode_contract {r : List Byte} (hr : r.length = 160) :
    (∃ c, IsCodeword params c ∧ wordDistance r c ≤ 16 ∧ rsDecode params r = .corrected c (wordDistance r c)) ∨
    ((∀ c, IsCodeword params c → 16 < wordDistance r c) ∧ rsDecode params r = .uncorrectable) := by
  rcases rsDecode_eq r with ⟨hzero, hdec⟩ | ⟨h, hdec⟩ | ⟨h, hdec⟩
  · exact .inl ⟨r, ⟨hr, hzero⟩, by simp [wordDistance_self], by rw [hdec, wordDistance_self]⟩
  · have hdist := h.wordDistance_correctedWord hr
    exact .inl ⟨_, h.isCodeword_correctedWord hr, hdist.trans_le h.len_le, by rw [hdec, hdist]⟩
  · exact .inr ⟨fun c hc => not_le.1 fun hd => h (located_of_wordDistance_le hr hc hd), hdec⟩

/-! ### The command -/

@[simp] theorem State.errOf_onStatus (f : BitVec 8 → BitVec 8) (s : State) (b : BitVec 1) :
    (s.onStatus f).errOf b = s.errOf b := rfl

@[simp] theorem State.block_onStatus (f : BitVec 8 → BitVec 8) (s : State) (b : BitVec 1) :
    (s.onStatus f).block b = s.block b := State.bytes_congr fun i _ => State.element_onStatus s f _ i

theorem State.draws_setBlock (s : State) (b : BitVec 1) (bs : List Byte) : (s.setBlock b bs).draws = s.draws := by
  unfold State.setBlock
  split <;> rfl

theorem State.draws_setErr (s : State) (b : BitVec 1) (v : Byte) : (s.setErr b v).draws = s.draws := by
  unfold State.setErr
  split <;> rfl

/-- The verdict's draws (R147; log 6). -/
theorem draws_rsdecEffect (b : BitVec 1) (s : State) :
    (rsdecEffect b s).draws = s.draws + (rsDecode params (s.block b)).drawsUsed params := by
  rw [rsdecEffect, State.useDraws_draws, State.draws_setErr, State.draws_setBlock]

theorem bit_ne_not : ∀ b : BitVec 1, ~~~b ≠ b := by decide

/-- The answer of an unrefused RSDEC b: nothing but RS[b], ERR[b] and STATUS changes (R130). -/
theorem exec_rsdec_of_not_faulted {s : State} (h : s.faulted = false) (b : BitVec 1) :
    ∃ t, t = (rsdecEffect b s).onStatus completeStatus ∧ exec (.rsdec b) s = .next t ∧ t.errOf (~~~b) = s.errOf (~~~b) ∧
      s.KeptBut [blockSpace b, .err] t ∧ s.CrcKept t ∧ Status.Completed s.status t.status := by
  have hexec := exec_of_not_faulted (.rsdec b) h
  obtain ⟨hpending, hreplies, hepoch⟩ := host_effectOf (.rsdec b) s
  refine ⟨_, rfl, hexec, ?_, ⟨fun sp hsp i => ?_, hpending, hreplies, hepoch⟩, exec_pipeline_crcKept rfl hexec, ?_⟩
  · rw [State.errOf_onStatus, errOf_rsdecEffect_other (bit_ne_not b)]
  · simp only [List.mem_cons, List.not_mem_nil, or_false, not_or] at hsp
    rw [State.element_onStatus, element_rsdecEffect_other b s hsp.1 hsp.2]
  · rw [State.onStatus, rsdecEffect_status]
    exact completed_completeStatus s.status

/-- Settles O34: the algorithm stops at zero syndromes and uses no draw. -/
theorem rsdecKeepsErrorFreeBlock : Obligations.RsdecKeepsErrorFreeBlock := by
  intro s b hf hzero
  obtain ⟨t, rfl, hexec, herr, hkept, hcrc, hstatus⟩ := exec_rsdec_of_not_faulted hf b
  have hdec := rsDecode_of_roots hzero
  refine ⟨_, hexec, ?_, ?_, herr, hkept, hcrc, ?_, hstatus⟩
  · rw [State.block_onStatus, block_rsdecEffect_of_corrected hdec (State.length_block s b)]
  · rw [State.errOf_onStatus, errOf_rsdecEffect_same, hdec]
    rfl
  · rw [State.onStatus_draws, draws_rsdecEffect, hdec]
    rfl

/-- Settles O37: the verdict is the contract's (R148). -/
theorem rsdecMeetsContract : Obligations.RsdecMeetsContract := by
  intro s b hf
  obtain ⟨t, rfl, hexec, herr, hkept, hcrc, hstatus⟩ := exec_rsdec_of_not_faulted hf b
  refine ⟨_, hexec, ?_, herr, hkept, hcrc, hstatus⟩
  rw [State.errOf_onStatus, State.block_onStatus, errOf_rsdecEffect_same]
  rcases rsDecode_contract (State.length_block s b) with ⟨c, hc, hd, hdec⟩ | ⟨hfar, hdec⟩
  · exact .inl ⟨c, hc, hd, block_rsdecEffect_of_corrected hdec hc.1, by rw [hdec]; rfl⟩
  · exact .inr ⟨hfar, by rw [hdec]; rfl⟩

/-- Settles O36: without the sentinel the contract's first case holds. -/
theorem rsdecSuccessIsACodeword : Obligations.RsdecSuccessIsACodeword := by
  intro s b hf
  obtain ⟨t, hexec, hverdict, -⟩ := rsdecMeetsContract s b hf
  refine ⟨t, hexec, fun hne => ?_⟩
  rcases hverdict with ⟨c, hc, hd, hblock, herr⟩ | ⟨-, herr⟩
  · have hcount : (t.errOf b).toNat = wordDistance (s.block b) c := by
      rw [herr, BitVec.toNat_ofNat, Nat.mod_eq_of_lt (by omega)]
    rw [hcount, hblock]
    exact ⟨hc, hd, rfl⟩
  · exact absurd herr hne

end Sys2Proof.Machine
end

section
/-! PROOFS. ASSEMBLE interleaves the data parts of the blocks (O39), so PAYLOAD is made of them after DECODE (O42);
DECODE is the six commands (O40), and run on the frame of a payload each of them undoes one step of the forward encoder
(O43). -/

namespace Sys2Proof.Machine

/-! ### ASSEMBLE -/

/-- R160, element by element. -/
theorem element_payload_assembleEffect_eq_ite (s : State) {i : Nat} (hi : i < 256) :
    (assembleEffect s).element .payload i =
      if i % 2 = 0 then s.element .rs0 (i / 2) else s.element .rs1 (i / 2) := by
  have hhalf : ∀ b : BitVec 1, i % 2 = b.toNat →
      (assembleEffect s).element .payload i = s.element (blockSpace b) (i / 2) := by
    intro b hpar
    have hlen : i / 2 < (blockSpace b).len := by rw [len_blockSpace]; omega
    rw [← State.getD_bytes s _ hlen, ← State.block, ← element_payload_assembleEffect s b (by omega), ← hpar,
      Nat.div_add_mod]
  rcases Nat.mod_two_eq_zero_or_one i with hpar | hpar
  · rw [if_pos hpar]
    exact hhalf 0 hpar
  · rw [if_neg (by omega)]
    exact hhalf 1 hpar

/-- The answer of an unrefused command of the pipeline whose rule writes no space but those of `written` (R81, R181). -/
theorem exec_pipeline_of_not_faulted {p : Instr} (hp : isCrc p = false) {s : State} (h : s.faulted = false)
    {written : List Space} (helem : ∀ sp, sp ∉ written → ∀ i, (effectOf p s).element sp i = s.element sp i) :
    ∃ t, t = (effectOf p s).onStatus completeStatus ∧ exec p s = .next t ∧ s.KeptBut written t ∧ s.CrcKept t ∧
      Status.Completed s.status t.status := by
  have hexec := exec_of_not_faulted p h
  obtain ⟨hpending, hreplies, hepoch⟩ := host_effectOf p s
  refine ⟨_, rfl, hexec, ⟨fun sp hsp i => ?_, hpending, hreplies, hepoch⟩, exec_pipeline_crcKept hp hexec, ?_⟩
  · rw [State.element_onStatus, helem sp hsp]
  · rw [State.onStatus, status_effectOf]
    exact completed_completeStatus s.status

/-- Settles O39: the rule writes each element from the block of its parity, and nothing but PAYLOAD. -/
theorem assembleInterleavesDataParts : Obligations.AssembleInterleavesDataParts := by
  intro s hf
  obtain ⟨t, rfl, hexec, hkept, hcrc, hstatus⟩ := exec_pipeline_of_not_faulted (p := .assemble) (written := [.payload])
    rfl hf fun sp hsp => element_assembleEffect_other s (by simpa using hsp)
  refine ⟨_, hexec, fun i hi => ?_, hkept, hcrc, assembleEffect_draws s, hstatus⟩
  rw [State.element_onStatus]
  exact element_payload_assembleEffect_eq_ite s hi

/-- Settles O42: DECODE ends in ASSEMBLE (R161), which leaves the blocks as they are. -/
theorem decodedPayloadIsTheBlocksDataParts : Obligations.DecodedPayloadIsTheBlocksDataParts := by
  intro s hf
  refine ⟨_, exec_decode_of_not_faulted hf, fun i hi => ?_⟩
  simp only [element_endCommand, decodeEffect_eq]
  rw [element_payload_assembleEffect_eq_ite _ hi, element_assembleEffect_other _ (by decide),
    element_assembleEffect_other _ (by decide)]

/-! ### DECODE as a run of commands -/

/-- Completing twice is completing once (R81). -/
theorem completeStatus_idem : ∀ st : BitVec 8, completeStatus (completeStatus st) = completeStatus st := by decide

/-- A completed command leaves FAULT as it was (R81). -/
theorem faulted_onStatus_completeStatus (s : State) : (s.onStatus completeStatus).faulted = s.faulted :=
  (completed_completeStatus s.status).fault

/-- A run of commands after a completed one does what their rules say, one after the other, and completes. -/
theorem execAll_of_completed (is : List Instr) {s : State} (h : s.faulted = false) :
    execAll is (s.onStatus completeStatus) = .next ((is.foldl (fun t i => effectOf i t) s).onStatus completeStatus) := by
  induction is generalizing s with
  | nil => rfl
  | cons i is ih =>
    have hi : (effectOf i s).faulted = false := by rw [State.faulted, status_effectOf]; exact h
    have hexec : exec i (s.onStatus completeStatus) = .next ((effectOf i s).onStatus completeStatus) := by
      rw [exec_of_not_faulted i ((faulted_onStatus_completeStatus s).trans h), effectOf_onStatus]
      simp [State.onStatus, completeStatus_idem]
    rw [execAll, hexec]
    exact ih hi

/-- RAW is the only one of the seven spaces that DECODE does not write (R24, R161). -/
theorem element_decodeEffect_other (s : State) {sp : Space}
    (h : sp ∉ [Space.conv, .dec, .rs0, .rs1, .payload, .err]) (i : Nat) :
    (decodeEffect s).element sp i = s.element sp i := by
  cases sp with
  | raw => simp [State.element_raw, decodeEffect_eq]
  | _ => simp at h

/-- Settles O40: the rule of DECODE is the six rules in order, and STATUS completed six times is STATUS completed. -/
theorem decodeIsTheSixCommands : Obligations.DecodeIsTheSixCommands := by
  intro s hf
  obtain ⟨t, rfl, hexec, hkept, hcrc, hstatus⟩ := exec_pipeline_of_not_faulted (p := .decode) rfl hf
    fun sp hsp => element_decodeEffect_other s hsp
  refine ⟨_, hexec, ?_, hkept, hcrc, hstatus⟩
  have hdeint : (effectOf .deint s).faulted = false := by rw [State.faulted, status_effectOf]; exact hf
  rw [execAll, exec_of_not_faulted .deint hf]
  exact execAll_of_completed [.viterbi, .descr, .rsdec 0, .rsdec 1, .assemble] hdeint

/-! ### Running one command after another -/

theorem execAll_cons_of_next {i : Instr} {is : List Instr} {s t : State} (h : exec i s = .next t) :
    execAll (i :: is) s = execAll is t := by rw [execAll, h]

/-- No command changes FAULT (R81, R194). -/
theorem faulted_of_exec {i : Instr} {s t : State} (h : exec i s = .next t) : t.faulted = s.faulted := by
  rcases exec_cases h with rfl | rfl
  · rfl
  · rw [faulted_onStatus_completeStatus, State.faulted, status_effectOf, State.faulted]

theorem State.KeptBut.block_eq {written : List Space} {s t : State} (h : s.KeptBut written t) {b : BitVec 1}
    (hb : blockSpace b ∉ written) : t.block b = s.block b :=
  State.bytes_congr fun i _ => h.elements (blockSpace b) hb i

theorem State.KeptBut.errOf_eq {written : List Space} {s t : State} (h : s.KeptBut written t)
    (hb : Space.err ∉ written) (b : BitVec 1) : t.errOf b = s.errOf b := by
  rcases bit_cases b with rfl | rfl
  · exact h.elements .err hb 0
  · exact h.elements .err hb 1

/-- A space whose elements are those of a list is that list. -/
theorem State.bytes_eq_of_elements {s : State} {sp : Space} {bs : List Byte} (hlen : bs.length = sp.len)
    (h : ∀ i, i < sp.len → s.element sp i = bs.getD i 0) : s.bytes sp = bs := by
  refine List.ext_getElem (by simp [hlen]) fun i hi hi' => ?_
  simp [State.bytes, h i (hlen ▸ hi'), hi']

/-! ### The frame of a payload -/

/-- The codeword that carries half b of a payload (the forward encoder's step 1). -/
def forwardCodeword (payload : List Byte) (b : BitVec 1) : List Byte := rsEncode params (payloadHalf payload b.toNat)

theorem length_payloadHalf (payload : List Byte) (b : Nat) : (payloadHalf payload b).length = 128 := by
  simp [payloadHalf]

theorem isCodeword_forwardCodeword (payload : List Byte) (b : BitVec 1) :
    IsCodeword params (forwardCodeword payload b) := isCodeword_rsEncode (length_payloadHalf payload b.toNat)

/-- The code is systematic (R152): the payload's bytes of parity b are the first 128 symbols of codeword b. -/
theorem getD_forwardCodeword (payload : List Byte) {b : BitVec 1} {i : Nat} (hi : i < 256) (hpar : i % 2 = b.toNat) :
    (forwardCodeword payload b).getD (i / 2) 0 = payload.getD i 0 := by
  have hj : i / 2 < 128 := by omega
  have hindex : 2 * (i / 2) + b.toNat = i := by omega
  rw [forwardCodeword, rsEncode, List.getD_append _ _ _ _ (by rwa [length_payloadHalf])]
  simp [payloadHalf, List.getD_eq_getElem?_getD, hj, hindex]

theorem forwardBlock_eq (payload : List Byte) :
    forwardBlock params payload = scrambleMerge params (forwardCodeword payload 0) (forwardCodeword payload 1) := rfl

theorem length_forwardBlock (payload : List Byte) : (forwardBlock params payload).length = 320 := by
  simp [forwardBlock, scrambleMerge]

theorem getD_forwardStream (payload : List Byte) (k : Nat) :
    (forwardStream params payload).getD k 0 =
      softImage ((enc params (withTail (forwardBlock params payload))).getD k false) :=
  List.getD_map _ false softImage

/-- The frame holds stream element k, with its polarity, at offset src(k) (R91, R95). -/
theorem getD_forwardFrame_src (payload : List Byte) (sync : Byte) {k : Nat} (hk : k < 5132) :
    (forwardFrame params payload sync).getD (src k) 0 = invert params k ((forwardStream params payload).getD k 0) := by
  obtain ⟨hlt, -⟩ := src_carries hk
  simp [forwardFrame, interleave, List.getD_eq_getElem?_getD, hlt, carried_src hk]

/-! ### Each command undoes one step of the forward encoder -/

/-- DEINT, VITERBI and DESCR turn the frame of a payload into its two codewords. -/
theorem execAll_front_of_forwardFrame {s : State} (hf : s.faulted = false) {payload : List Byte} {sync : Byte}
    (hraw : ∀ off, off < 5200 → s.element .raw off = (forwardFrame params payload sync).getD off 0) :
    ∃ t, (∀ is, execAll (.deint :: .viterbi :: .descr :: is) s = execAll is t) ∧ t.faulted = false ∧
      ∀ b, t.block b = forwardCodeword payload b := by
  obtain ⟨s₁, hdeint, hconv⟩ := deinterleaveInvertsInterleave.1 s (fun k => (forwardStream params payload).getD k 0) hf
    fun k hk => by rw [hraw _ (src_carries hk).1, getD_forwardFrame_src payload sync hk, invert_params]
  have hf₁ := (faulted_of_exec hdeint).trans hf
  obtain ⟨s₂, hviterbi, hdec⟩ := viterbiDecodesNoiseFreeBlock s₁ _ hf₁ (length_forwardBlock payload)
    fun k hk => (hconv k hk).trans (getD_forwardStream payload k)
  have hf₂ := (faulted_of_exec hviterbi).trans hf₁
  obtain ⟨s₃, hdescr, hblock0, hblock1⟩ := descrInvertsScrambleMerge s₂ _ _ hf₂
    (isCodeword_forwardCodeword payload 0).1 (isCodeword_forwardCodeword payload 1).1 hdec
  refine ⟨s₃, fun is => ?_, (faulted_of_exec hdescr).trans hf₂, fun b => ?_⟩
  · rw [execAll_cons_of_next hdeint, execAll_cons_of_next hviterbi, execAll_cons_of_next hdescr]
  · rcases bit_cases b with rfl | rfl
    · exact hblock0
    · exact hblock1

/-- RSDEC b keeps a block that holds a codeword and counts no error in it; the other block and count stay (R139). -/
theorem exec_rsdec_of_isCodeword {s : State} (hf : s.faulted = false) {b : BitVec 1}
    (hcode : IsCodeword params (s.block b)) :
    ∃ t, exec (.rsdec b) s = .next t ∧ t.faulted = false ∧ (∀ c, t.block c = s.block c) ∧ t.errOf b = 0 ∧
      t.errOf (~~~b) = s.errOf (~~~b) := by
  obtain ⟨t, hexec, hblock, herr, hother, hkept, -⟩ := rsdecKeepsErrorFreeBlock s b hf hcode.2
  refine ⟨t, hexec, (faulted_of_exec hexec).trans hf, fun c => ?_, herr, hother⟩
  by_cases hc : c = b
  · rw [hc, hblock]
  · have hspace : blockSpace c ≠ blockSpace b := fun h => hc (blockSpace_injective c b h)
    exact hkept.block_eq (by simp [hspace, blockSpace_ne_of])

/-- RSDEC 0, RSDEC 1 and ASSEMBLE on two codewords: the counts 0, 0, and the data parts interleaved in PAYLOAD. -/
theorem execAll_back_of_isCodeword {s : State} (hf : s.faulted = false) (hcode : ∀ b, IsCodeword params (s.block b)) :
    ∃ t, execAll [.rsdec 0, .rsdec 1, .assemble] s = .next t ∧ (∀ b, t.errOf b = 0) ∧
      ∀ i, i < 256 → t.element .payload i =
        if i % 2 = 0 then (s.block 0).getD (i / 2) 0 else (s.block 1).getD (i / 2) 0 := by
  obtain ⟨s₁, hrsdec0, hf₁, hblocks₁, herr0, -⟩ := exec_rsdec_of_isCodeword hf (hcode 0)
  obtain ⟨s₂, hrsdec1, hf₂, hblocks₂, herr1, hkept0⟩ := exec_rsdec_of_isCodeword (b := 1) hf₁
    (by rw [hblocks₁]; exact hcode 1)
  obtain ⟨t, hassemble, hpayload, hkept, -⟩ := assembleInterleavesDataParts s₂ hf₂
  refine ⟨t, ?_, fun b => ?_, fun i hi => ?_⟩
  · rw [execAll_cons_of_next hrsdec0, execAll_cons_of_next hrsdec1, execAll_cons_of_next hassemble, execAll]
  · rw [hkept.errOf_eq (by decide)]
    rcases bit_cases b with rfl | rfl
    · exact hkept0.trans herr0
    · exact herr1
  · have hi' : i / 2 < 160 := by omega
    rw [hpayload i hi, ← State.getD_bytes s₂ .rs0 hi', ← State.getD_bytes s₂ .rs1 hi', ← State.block_zero,
      ← State.block_one, hblocks₂, hblocks₂, hblocks₁, hblocks₁]

/-- Settles O43: run as its six commands (O40), DECODE undoes the forward encoder step by step: interleaving (O22), the
convolutional code (O24), scramble-and-merge (O28), the codewords (O34) and the split in halves (O39). -/
theorem decodeInvertsForwardEncoder : Obligations.DecodeInvertsForwardEncoder := by
  intro s payload sync hf hlen hraw
  obtain ⟨t, hexec, hsix, -⟩ := decodeIsTheSixCommands s hf
  obtain ⟨s₃, hfront, hf₃, hblocks⟩ := execAll_front_of_forwardFrame hf hraw
  obtain ⟨t', hback, herr, hpayload⟩ := execAll_back_of_isCodeword hf₃ fun b => by
    rw [hblocks]
    exact isCodeword_forwardCodeword payload b
  obtain rfl : t = t' := by
    rw [hfront, hback] at hsix
    exact (Host.Outcome.next.inj hsix).symm
  refine ⟨t, hexec, State.bytes_eq_of_elements hlen fun i hi => ?_, herr 0, herr 1⟩
  have hi : i < 256 := hi
  rw [hpayload i hi, hblocks, hblocks]
  rcases Nat.mod_two_eq_zero_or_one i with hpar | hpar
  · rw [if_pos hpar, getD_forwardCodeword payload (b := 0) hi hpar]
  · rw [if_neg (by omega), getD_forwardCodeword payload (b := 1) hi hpar]

end Sys2Proof.Machine
end

section
/-! PROOFS. The CRC functions equal their least-significant-bit-first form (R177): bit reversal turns each operation on
the register into its mirror image, and so carries one fold over the bytes to the other (O50). -/

namespace Sys2Proof.Machine

variable {w : Nat}

@[simp] theorem getLsbD_rev (v : BitVec w) (i : Nat) : (rev v).getLsbD i = v.getMsbD i := BitVec.getLsbD_reverse

@[simp] theorem getMsbD_rev (v : BitVec w) (i : Nat) : (rev v).getMsbD i = v.getLsbD i := BitVec.getMsbD_reverse

theorem rev_xor (v v' : BitVec w) : rev (v ^^^ v') = rev v ^^^ rev v' := by
  refine BitVec.eq_of_getLsbD_eq fun i hi => ?_
  rw [getLsbD_rev, BitVec.getMsbD_xor, BitVec.getLsbD_xor, getLsbD_rev, getLsbD_rev]

theorem rev_shiftLeft_one (v : BitVec w) : rev (v <<< 1) = rev v >>> 1 := by
  refine BitVec.eq_of_getLsbD_eq fun i hi => ?_
  rw [getLsbD_rev, BitVec.getMsbD_shiftLeft, BitVec.getLsbD_ushiftRight, getLsbD_rev, Nat.add_comm]

/-- The reversed byte in the high-order bits of the register is, seen from the other end, the byte itself. -/
theorem rev_shiftLeft_rev (hw : 8 ≤ w) (b : Byte) : rev ((rev b).setWidth w <<< (w - 8)) = b.setWidth w := by
  refine BitVec.eq_of_getLsbD_eq fun i hi => ?_
  have htop : i + (w - 8) + 8 - w = i := by omega
  rw [getLsbD_rev, BitVec.getMsbD_shiftLeft, BitVec.getMsbD_setWidth, htop, getMsbD_rev, BitVec.getLsbD_setWidth]
  simp [hi]

theorem rev_crcShift (c : CrcRecord w) (r : BitVec w) : rev (crcShift c r) = crcReflectedShift c (rev r) := by
  rw [crcShift, crcReflectedShift, getLsbD_rev, ← BitVec.msb]
  split
  · rw [rev_xor, rev_shiftLeft_one]
  · rw [rev_shiftLeft_one]

theorem rev_crcAbsorb {c : CrcRecord w} (hw : 8 ≤ w) (hrefin : c.refin = true) (r : BitVec w) (b : Byte) :
    rev (crcAbsorb c r b) = (crcReflectedShift c)^[8] (rev r ^^^ b.setWidth w) := by
  have hiter : Function.Semiconj rev (crcShift c)^[8] (crcReflectedShift c)^[8] :=
    Function.Semiconj.iterate_right (rev_crcShift c) 8
  rw [crcAbsorb, if_pos hrefin, hiter.eq, rev_xor, rev_shiftLeft_rev hw]

/-- With both reflections on, the engine is its least-significant-bit-first form (R177). -/
theorem crcOf_eq_crcReflected {c : CrcRecord w} (hw : 8 ≤ w) (hrefin : c.refin = true) (hrefout : c.refout = true)
    (bs : List Byte) : crcOf c bs = crcReflected c bs := by
  rw [crcOf, crcFinal, if_pos hrefout, crcReflected]
  exact congrArg (· ^^^ c.xorout) (List.foldl_hom rev fun r b => (rev_crcAbsorb hw hrefin r b).symm).symm

/-- Settles O50: bit reversal carries the engine's register to the reflected form's. -/
theorem crcEqualsReflectedForm : Obligations.CrcEqualsReflectedForm :=
  ⟨by decide +kernel, by decide +kernel, fun bs =>
    ⟨crcOf_eq_crcReflected (by decide) rfl rfl bs, crcOf_eq_crcReflected (by decide) rfl rfl bs⟩⟩

end Sys2Proof.Machine
end

section
/-! PROOFS. The three commands of the CRC engine, each as R171 to R173 write it (O44, O45, O46), and the CRC functions
they compute together (O47, O48, O49). -/

namespace Sys2Proof.Machine

/-- A command that is not refused does what its rule says, and beside that writes STATUS alone (R81). -/
theorem exec_eq_effect_and_status (i : Instr) {s : State} (h : s.faulted = false) :
    ∃ st, exec i s = .next { effectOf i s with status := st } ∧ Status.Completed s.status st := by
  refine ⟨completeStatus s.status, ?_, completed_completeStatus s.status⟩
  rw [exec_of_not_faulted i h, State.onStatus, status_effectOf]

/-- Settles O44: the initial values are those of the two records. -/
theorem crcinitStartsTheVariant : Obligations.CrcinitStartsTheVariant :=
  fun _ m hf => exec_eq_effect_and_status (.crcinit m) hf

/-- The branch of the engine's shift is the mask of R172. -/
theorem crcShift_eq_crcMaskedShift {w : Nat} (c : CrcRecord w) : crcShift c = crcMaskedShift c.poly := by
  funext r
  rw [crcShift, crcMaskedShift]
  cases r.msb <;> simp

/-- The reversed byte enters at the top of the register, and eight masked shifts follow (R172). -/
theorem crcAbsorb_eq_masked {w : Nat} {c : CrcRecord w} (hrefin : c.refin = true) (r : BitVec w) (b : Byte) :
    crcAbsorb c r b = (crcMaskedShift c.poly)^[8] (r ^^^ (b.reverse.setWidth w <<< (w - 8))) := by
  rw [crcAbsorb, if_pos hrefin, crcShift_eq_crcMaskedShift, rev]

theorem crcbyteEffect_eq_masked (imm8 : Byte) (s : State) :
    crcbyteEffect imm8 s = { s with
      crcr :=
        if s.crcmode = 0 then
          ((crcMaskedShift 0x8005#16)^[8] (s.crcr.setWidth 16 ^^^ (imm8.reverse.setWidth 16 <<< 8))).setWidth 32
        else (crcMaskedShift 0x04C11DB7#32)^[8] (s.crcr ^^^ (imm8.reverse.setWidth 32 <<< 24)) } := by
  rw [crcbyteEffect, crcAbsorb_eq_masked rfl, crcAbsorb_eq_masked rfl, BitVec.setWidth_eq, BitVec.setWidth_eq]
  rfl

/-- Settles O45: the rule is R172's, the masks written out. -/
theorem crcbyteAbsorbsOneByte : Obligations.CrcbyteAbsorbsOneByte := by
  intro s imm8 hf
  obtain ⟨st, hexec, hdone⟩ := exec_eq_effect_and_status (.crcbyte imm8) hf
  rw [effectOf, crcbyteEffect_eq_masked] at hexec
  exact ⟨st, hexec, hdone⟩

theorem crcfinEffect_eq (s : State) :
    crcfinEffect s = { s with
      crcout := if s.crcmode = 0 then (s.crcr.setWidth 16).reverse.setWidth 32
                else s.crcr.reverse ^^^ 0xFFFFFFFF } := by
  have h16 (r : BitVec 16) : crcFinal params.crc16 r = r.reverse := BitVec.xor_zero
  have h32 (r : BitVec 32) : crcFinal params.crc32 r = r.reverse ^^^ 0xFFFFFFFF := rfl
  rw [crcfinEffect, h16, h32, BitVec.setWidth_eq, BitVec.setWidth_eq]

/-- Settles O46: both records reverse the register, and the mask of the 16-bit one is 0. -/
theorem crcfinFinalisesIntoCrcout : Obligations.CrcfinFinalisesIntoCrcout := by
  intro s hf
  obtain ⟨st, hexec, hdone⟩ := exec_eq_effect_and_status .crcfin hf
  rw [effectOf, crcfinEffect_eq] at hexec
  exact ⟨st, hexec, hdone⟩

/-! ### The commands together -/

/-- Variant m is the one of record c: the low W bits of CRCR are the record's register (R170). -/
structure SelectsRecord {w : Nat} (m : BitVec 1) (c : CrcRecord w) : Prop where
  start  : ∀ s, (crcinitEffect m s).crcr.setWidth w = c.init
  absorb : ∀ b s, s.crcmode = m → (crcbyteEffect b s).crcr.setWidth w = crcAbsorb c (s.crcr.setWidth w) b
  finish : ∀ s, s.crcmode = m → (crcfinEffect s).crcout = (crcFinal c (s.crcr.setWidth w)).setWidth 32

theorem selectsRecord_crc16 : SelectsRecord 0 params.crc16 where
  start _ := rfl
  absorb b s hm := by
    rw [crcbyteEffect, if_pos hm]
    exact BitVec.setWidth_setWidth_of_le _ (by decide)
  finish s hm := if_pos hm

theorem selectsRecord_crc32 : SelectsRecord 1 params.crc32 where
  start _ := rfl
  absorb b s hm := by
    rw [crcbyteEffect, if_neg (by rw [hm]; decide)]
    exact (BitVec.setWidth_eq _).trans (BitVec.setWidth_eq _)
  finish s hm := if_neg (by rw [hm]; decide)

/-- The rules of one CRCBYTE per byte, in order (R174). -/
def absorbEffect (bs : List Byte) (s : State) : State := bs.foldl (fun t b => crcbyteEffect b t) s

/-- CRCBYTE keeps the variant and folds the bytes into its register. -/
theorem SelectsRecord.absorbEffect_eq {w : Nat} {m : BitVec 1} {c : CrcRecord w} (hsel : SelectsRecord m c)
    (bs : List Byte) {s : State} (hm : s.crcmode = m) :
    (absorbEffect bs s).crcmode = m ∧
      (absorbEffect bs s).crcr.setWidth w = bs.foldl (crcAbsorb c) (s.crcr.setWidth w) := by
  induction bs generalizing s with
  | nil => exact ⟨hm, rfl⟩
  | cons b bs ih =>
    obtain ⟨hmode, hcrcr⟩ := ih ((crcbyteEffect_crcmode b s).trans hm)
    exact ⟨hmode, hcrcr.trans (by rw [hsel.absorb b s hm, List.foldl_cons])⟩

/-- The rules of CRCINIT m, one CRCBYTE per byte and CRCFIN leave the CRC of the bytes in CRCOUT (R174). -/
theorem SelectsRecord.crcout_eq {w : Nat} {m : BitVec 1} {c : CrcRecord w} (hsel : SelectsRecord m c) (bs : List Byte)
    (s : State) :
    (crcfinEffect (absorbEffect bs (crcinitEffect m s))).crcout = (crcOf c bs).setWidth 32 := by
  obtain ⟨hmode, hcrcr⟩ := hsel.absorbEffect_eq bs (s := crcinitEffect m s) rfl
  rw [hsel.finish _ hmode, hcrcr, hsel.start, crcOf]

/-- A run of commands, the first not refused, does what their rules say, one after the other, and completes. -/
theorem execAll_cons_of_not_faulted (i : Instr) (is : List Instr) {s : State} (h : s.faulted = false) :
    execAll (i :: is) s = .next ((is.foldl (fun t j => effectOf j t) (effectOf i s)).onStatus completeStatus) := by
  rw [execAll_cons_of_next (exec_of_not_faulted i h)]
  exact execAll_of_completed is (by rw [State.faulted, status_effectOf]; exact h)

/-- CRCINIT m, one CRCBYTE per byte and CRCFIN do what their rules say, in order, and complete (R174). -/
theorem execAll_crc_of_not_faulted {s : State} (h : s.faulted = false) (m : BitVec 1) (bs : List Byte) :
    execAll (.crcinit m :: bs.map .crcbyte ++ [.crcfin]) s =
      .next ((crcfinEffect (absorbEffect bs (crcinitEffect m s))).onStatus completeStatus) := by
  rw [List.cons_append, execAll_cons_of_not_faulted _ _ h, List.foldl_append, List.foldl_map]
  rfl

/-- Settles O47: the rules of the run, for the record of either variant. -/
theorem crcCommandsComputeTheCrcFunction : Obligations.CrcCommandsComputeTheCrcFunction := by
  intro s m bs hf
  refine ⟨_, execAll_crc_of_not_faulted hf m bs, ?_⟩
  rw [State.onStatus_crcout]
  rcases bit_cases m with rfl | rfl
  · exact selectsRecord_crc16.crcout_eq bs s
  · exact (selectsRecord_crc32.crcout_eq bs s).trans (BitVec.setWidth_eq _)

/-- Settles O48: the run of O47 without a byte. -/
theorem emptyMessageHasCrcZero : Obligations.EmptyMessageHasCrcZero := by
  intro s m hf
  have h16 : crcOf params.crc16 [] = 0 := by decide +kernel
  have h32 : crcOf params.crc32 [] = 0 := by decide +kernel
  obtain ⟨t, hexec, hout⟩ := crcCommandsComputeTheCrcFunction s m [] hf
  exact ⟨t, hexec, by simpa [h16, h32] using hout⟩

/-- Settles O49, by running the functions on the nine bytes. -/
theorem crcCheckValues : Obligations.CrcCheckValues := by
  constructor
  · decide +kernel
  · decide +kernel

end Sys2Proof.Machine
end

section
/-! PROOFS. The fault primitive (O13), the fault state (O16) and its only exit (O17), and the access made while
BUSY = 1 (O6). -/

namespace Sys2Proof.Machine

/-! ### The fault primitive -/

/-- Settles O13: the first fault leaves its cause, and a later one only clears DONE and BUSY. -/
theorem raiseFaultKeepsFirstCause : Obligations.RaiseFaultKeepsFirstCause := by
  intro c s
  refine ⟨(raiseFault c s).status, raiseFault_eq c s, ?_⟩
  cases hf : s.faulted with
  | false =>
    obtain ⟨hfault, hcause, hdone, hbusy, hreserved⟩ := faulted_raiseFault c hf
    exact ⟨hfault, hdone, hbusy, hreserved, fun _ => hcause, fun h => absurd h Bool.false_ne_true⟩
  | true =>
    rw [raiseFault_status_of_faulted hf]
    have hfault : Status.fault s.status = true := hf
    simp [hfault]

/-! ### The fault state -/

/-- While FAULT = 1 every command is refused (R194). -/
theorem exec_of_faulted (i : Instr) {s : State} (hf : s.faulted = true) : exec i s = .next s := by
  rw [exec_eq, runCommand_of_faulted _ hf]

/-- While FAULT = 1 every word is refused, whether it decodes to a command or not (R194). -/
theorem issue_of_faulted {s : State} (hf : s.faulted = true) (w : CommandWord) : issue w s = .next s := by
  cases hw : decodeWord w with
  | ok i => rw [issue_of_legal hw, exec_of_faulted i hf]
  | error e => simp [issue_of_illegal hw, rejectWord, hf]

/-- While FAULT = 1 a read out of range raises no further fault (R194). -/
theorem memRead_outside_of_faulted {s : State} {space i : Nat} (h : WellFormed.readAccess space i = false)
    (hf : s.faulted = true) : memRead space i s = answerAny space i s := by
  simp [memRead, location_eq_none.2 h, hf]

/-- Settles O16: commands and writes are refused, and a read answers as it does in any other state. -/
theorem faultedCoreIsInert : Obligations.FaultedCoreIsInert := by
  refine fun s hf => ⟨fun i => exec_of_faulted i hf, issue_of_faulted hf, fun space i v => ?_,
    (memReadReturnsElement s).1, fun space i hout => ⟨Config.freeByte s.draws space i, s.draws + 1, ?_⟩,
    regReadReturnsRegister s⟩
  · rw [perform, memWrite_of_faulted hf]
  · rw [perform, memRead_outside_of_faulted hout hf]
    rfl

/-- A read of the memory changes nothing in STATUS while FAULT = 1. -/
theorem status_memRead_of_faulted {s : State} (hf : s.faulted = true) (space i : Nat) :
    (memRead space i s).status = s.status := by
  cases hloc : location space i with
  | none =>
    rw [memRead_outside_of_faulted (location_eq_none.1 hloc) hf]
    rfl
  | some sp =>
    obtain ⟨rfl, hi⟩ := location_some hloc
    rw [memRead_id s hi]
    rfl

/-- While FAULT = 1 no action but the reset event touches STATUS (R193, R194). -/
theorem status_perform_of_faulted {s t : State} (hf : s.faulted = true) {a : HostAction} (ha : a ≠ .reset)
    (h : perform a s = .next t) : t.status = s.status := by
  cases a with
  | issue w =>
    rw [perform, issue_of_faulted hf] at h
    cases h
    rfl
  | memRead space i =>
    cases h
    exact status_memRead_of_faulted hf space i
  | memWrite space i v =>
    cases h
    rw [memWrite_of_faulted hf]
  | regRead name =>
    cases h
    cases name <;> rfl
  | reset => exact absurd rfl ha

/-! ### The access made while BUSY = 1 -/

/-- Whatever access it stops, the busy fault is the fault primitive, and a reply to the host where the access was a
read (R188, R55). -/
theorem busyFault_eq (a : HostAction) (s : State) : ∃ (replies : List Reply) (draws : Nat),
    busyFault a s = { s with status := (raiseFault .busyAccess s).status, replies := replies, draws := draws } := by
  cases a with
  | memRead space i => exact ⟨_, _, by rw [busyFault, raiseFault_eq]; rfl⟩
  | _ => exact ⟨s.replies, s.draws, raiseFault_eq .busyAccess s⟩

/-- While BUSY = 1 an action that needs an idle core is held off or raises the busy fault (R210, D30). -/
theorem step_of_busy {s : State} {a : HostAction} {rest : List HostAction} (h : s.pending = a :: rest)
    (hb : s.busy = true) (ha : needsIdle a = true) :
    step s = .next s ∨ step s = .next (busyFault a { s with pending := rest }) := by
  rw [step_of_pending h, hostStep, if_pos (by rw [hb, ha]; rfl)]
  cases Config.busyPolicy with
  | stall => exact .inl rfl
  | fault => exact .inr rfl

/-- Settles O6: the busy fault changes STATUS, the host's replies and the draws, and nothing else. -/
theorem busyAccessIsHeldOffOrFaults : Obligations.BusyAccessIsHeldOffOrFaults := by
  intro s a rest h hb hf ha
  refine (step_of_busy h hb ha).imp_right fun hstep => ?_
  obtain ⟨replies, draws, heq⟩ := busyFault_eq a { s with pending := rest }
  rw [heq] at hstep
  exact ⟨_, hstep, faulted_raiseFault .busyAccess (s := { s with pending := rest }) hf, ⟨rfl, rfl, rfl⟩, rfl,
    fun sp i => by cases sp <;> rfl⟩

/-! ### The only exit from the fault state -/

/-- In a fault state the busy fault keeps FAULT and CAUSE (R187: the first cause is kept). -/
theorem busyFault_of_faulted {s : State} (hf : s.faulted = true) (a : HostAction) :
    (busyFault a s).faulted = true ∧ Status.cause (busyFault a s).status = Status.cause s.status := by
  obtain ⟨replies, draws, heq⟩ := busyFault_eq a s
  have hfault : Status.fault s.status = true := hf
  rw [heq, raiseFault_status_of_faulted hf]
  simp [State.faulted, hfault]

/-- Everything a step can do with the oldest action: perform it, hold it off, or raise the busy fault. -/
theorem step_cases {s : State} {a : HostAction} {rest : List HostAction} (h : s.pending = a :: rest) :
    step s = perform a { s with pending := rest } ∨ step s = .next s ∨
      step s = .next (busyFault a { s with pending := rest }) := by
  cases hb : s.busy with
  | false => exact .inl (step_of_not_busy h hb)
  | true =>
    cases ha : needsIdle a with
    | false => exact .inl (step_of_not_needsIdle h ha)
    | true => exact .inr (step_of_busy h hb ha)

theorem faultKept_of_status_eq {s t : State} (hf : s.faulted = true) (h : t.status = s.status) :
    t.faulted = true ∧ Status.cause t.status = Status.cause s.status :=
  ⟨(congrArg Status.fault h).trans hf, congrArg Status.cause h⟩

/-- Settles O17: an idle or held-off step changes nothing, a performed action leaves STATUS alone unless it is the reset
event, and a busy fault keeps the first cause. -/
theorem onlyResetLeavesTheFaultState : Obligations.OnlyResetLeavesTheFaultState := by
  intro s t hf hreset h
  cases hp : s.pending with
  | nil =>
    cases (step_of_idle hp).symm.trans h
    exact faultKept_of_status_eq hf rfl
  | cons a rest =>
    have ha : a ≠ .reset := by
      rintro rfl
      exact hreset (by rw [hp, List.head?_cons])
    rcases step_cases hp with hstep | hstep | hstep
    · have hperform : perform a { s with pending := rest } = .next t := hstep.symm.trans h
      exact faultKept_of_status_eq hf (status_perform_of_faulted (s := { s with pending := rest }) hf ha hperform)
    · cases hstep.symm.trans h
      exact faultKept_of_status_eq hf rfl
    · cases hstep.symm.trans h
      exact busyFault_of_faulted (s := { s with pending := rest }) hf a

end Sys2Proof.Machine
end
